-- ==== Sys2Proof/Word.lean ====
section
/-!
DEFINITION. The fixed widths of 00_scope.md R9: what the spec treats as a bit pattern is a `BitVec` of
that width. Nothing but names of types stands here.
-/
namespace Sys2Proof

/-- A command word or a response word (R9, R80, R86). -/
abbrev Word64 := BitVec 64

/-- `BASE`, an SR history sample, a latch, an accumulator, the operand `W` (R9, R80). -/
abbrev Word32 := BitVec 32

/-- `RANGE`, `IX`, `LEN`, a CDF entry, an SR tap, the operand `A` (R9, R80). -/
abbrev Word16 := BitVec 16

/-- A payload byte (R9). -/
abbrev Byte := BitVec 8

end Sys2Proof
end

