-- ==== Sys2Proof/Syntax.lean ====
section
/-!
DEFINITION. The 20 commands of 30_encoding.md R84, one constructor per row of spec/opcode_table.json.
A constructor carries exactly the fields R84 lists as used, at the widths of R80 and R83; the fields a
command does not use are zero in every legal word (R82) and are not part of the syntax.
-/
namespace Sys2Proof

/-- A command (R84). -/
inductive Instr where
  /-- NOP (R170). -/
  | nop
  /-- CSR_RD `csr` (R171). -/
  | csrRd (csr : Word16)
  /-- RC_ENC_INIT `len` (R101). -/
  | rcEncInit (len : Word16)
  /-- RC_DEC_INIT `len` (R102). -/
  | rcDecInit (len : Word16)
  /-- RC_ENCODE `base, nsym, sym` (R104). -/
  | rcEncode (base nsym sym : Word16)
  /-- RC_DECODE `base, nsym, hint` (R110); the hint is carried and read by no rule (R112). -/
  | rcDecode (base nsym hint : Word16)
  /-- RC_GET_LENGTH (R116). -/
  | rcGetLength
  /-- RC_ENC_WRAPUP (R118). -/
  | rcEncWrapup
  /-- RC_CHECK (R120). -/
  | rcCheck
  /-- BUF_RD `addr` (R172). -/
  | bufRd (addr : Word16)
  /-- BUF_WR `addr, byte` (R173). -/
  | bufWr (addr : Word16) (byte : Byte)
  /-- CDF_RD `index` (R174). -/
  | cdfRd (index : Word16)
  /-- SR_CLEAR `ctx` (R147). -/
  | srClear (ctx : BitVec 4)
  /-- SR_COPY `dst, src` (R146); the source index is the whole 16-bit `A` field. -/
  | srCopy (dst : BitVec 4) (src : Word16)
  /-- SR_RD `ctx, reg` (R175). -/
  | srRd (ctx : BitVec 4) (reg : Word16)
  /-- SR_WR `ctx, reg, value` (R176). -/
  | srWr (ctx : BitVec 4) (reg : Word16) (value : Word32)
  /-- SR_PEEK `ctx, ring, k` (R177). -/
  | srPeek (ctx : BitVec 4) (ring : BitVec 2) (k : BitVec 14)
  /-- SR_POKE `ctx, ring, k, value` (R178). -/
  | srPoke (ctx : BitVec 4) (ring : BitVec 2) (k : BitVec 14) (value : Word32)
  /-- SR_PREDICT `ctx, x` (R131). -/
  | srPredict (ctx : BitVec 4) (x : Word32)
  /-- SR_COMMIT `ctx, q` (R141). -/
  | srCommit (ctx : BitVec 4) (q : Word32)
deriving DecidableEq, Repr

end Sys2Proof
end

