-- ==== Sys2Proof/Decode.lean ====
section
/-!
DEFINITION. The command word of 30_encoding.md R80 to R85, read and written: its five fields, the
decoder (total on any word, rejecting by name), the encoder from the same table, the byte order of a
word written as bytes (R93), and the host's `decodeTableWord`.
-/
namespace Sys2Proof

/-- The five fields of the one format `CMD` (R80). -/
structure CmdFields where
  /-- `OPC`, bits [63:56]. -/
  opc : BitVec 8
  /-- `CTX`, bits [55:52]. -/
  ctx : BitVec 4
  /-- `RSV`, bits [51:48]. -/
  rsv : BitVec 4
  /-- `A`, bits [47:32]. -/
  a : Word16
  /-- `W`, bits [31:0]. -/
  w : Word32
deriving DecidableEq, Repr

/-- The fields of a command word (R80). -/
def splitFields (w : Word64) : CmdFields where
  opc := w.extractLsb' 56 8
  ctx := w.extractLsb' 52 4
  rsv := w.extractLsb' 48 4
  a := w.extractLsb' 32 16
  w := w.extractLsb' 0 32

/-- The command word with these fields (R80). -/
def joinFields (f : CmdFields) : Word64 :=
  f.opc ++ f.ctx ++ f.rsv ++ f.a ++ f.w

/-- Why a word is no command: the first two rows of R88. -/
inductive DecodeError where
  /-- `OPC` is not one of the 20 assigned values: UF_OPCODE. -/
  | opcode
  /-- `RSV` or an unused field or sub-field is not zero: UF_FIELD. -/
  | field
deriving DecidableEq, Repr

/-- The command `i` if the fields that must be zero are zero (R82). -/
def ifZero (zero : Bool) (i : Instr) : Except DecodeError Instr :=
  if zero then .ok i else .error .field

/-- The opcode map of R84 and R85, with each row's fields that must be zero (R82) and the sub-fields of
R83. Numbers are in hexadecimal as in R84. -/
def decodeFields (f : CmdFields) : Except DecodeError Instr :=
  let rsv0 := f.rsv == 0
  let ctx0 := f.ctx == 0
  let a0 := f.a == 0
  let w0 := f.w == 0
  let hi : Word16 := f.w.extractLsb' 16 16
  let lo : Word16 := f.w.extractLsb' 0 16
  let ring : BitVec 2 := f.a.extractLsb' 14 2
  let k : BitVec 14 := f.a.extractLsb' 0 14
  match f.opc.toNat with
  | 0x00 => ifZero (ctx0 && rsv0 && a0 && w0) .nop
  | 0x01 => ifZero (ctx0 && rsv0 && w0) (.csrRd f.a)
  | 0x10 => ifZero (ctx0 && rsv0 && w0) (.rcEncInit f.a)
  | 0x11 => ifZero (ctx0 && rsv0 && w0) (.rcDecInit f.a)
  | 0x12 => ifZero (ctx0 && rsv0) (.rcEncode f.a hi lo)
  | 0x13 => ifZero (ctx0 && rsv0) (.rcDecode f.a hi lo)
  | 0x14 => ifZero (ctx0 && rsv0 && a0 && w0) .rcGetLength
  | 0x15 => ifZero (ctx0 && rsv0 && a0 && w0) .rcEncWrapup
  | 0x16 => ifZero (ctx0 && rsv0 && a0 && w0) .rcCheck
  | 0x18 => ifZero (ctx0 && rsv0 && w0) (.bufRd f.a)
  | 0x19 => ifZero (ctx0 && rsv0 && f.w.extractLsb' 8 24 == 0) (.bufWr f.a (f.w.extractLsb' 0 8))
  | 0x1A => ifZero (ctx0 && rsv0 && w0) (.cdfRd f.a)
  | 0x20 => ifZero (rsv0 && a0 && w0) (.srClear f.ctx)
  | 0x21 => ifZero (rsv0 && w0) (.srCopy f.ctx f.a)
  | 0x22 => ifZero (rsv0 && w0) (.srRd f.ctx f.a)
  | 0x23 => ifZero rsv0 (.srWr f.ctx f.a f.w)
  | 0x24 => ifZero (rsv0 && w0) (.srPeek f.ctx ring k)
  | 0x25 => ifZero rsv0 (.srPoke f.ctx ring k f.w)
  | 0x28 => ifZero (rsv0 && a0) (.srPredict f.ctx f.w)
  | 0x29 => ifZero (rsv0 && a0) (.srCommit f.ctx f.w)
  | _ => .error .opcode

/-- The decoder: `OPC` first, then the fields that must be zero (R81, R82, R198 steps 2 and 3). -/
def decode (w : Word64) : Except DecodeError Instr :=
  decodeFields (splitFields w)

/-- The fields of a command, from the same table (R83, R84). -/
def encodeFields : Instr → CmdFields
  | .nop => ⟨0x00, 0, 0, 0, 0⟩
  | .csrRd csr => ⟨0x01, 0, 0, csr, 0⟩
  | .rcEncInit len => ⟨0x10, 0, 0, len, 0⟩
  | .rcDecInit len => ⟨0x11, 0, 0, len, 0⟩
  | .rcEncode base nsym sym => ⟨0x12, 0, 0, base, nsym ++ sym⟩
  | .rcDecode base nsym hint => ⟨0x13, 0, 0, base, nsym ++ hint⟩
  | .rcGetLength => ⟨0x14, 0, 0, 0, 0⟩
  | .rcEncWrapup => ⟨0x15, 0, 0, 0, 0⟩
  | .rcCheck => ⟨0x16, 0, 0, 0, 0⟩
  | .bufRd addr => ⟨0x18, 0, 0, addr, 0⟩
  | .bufWr addr byte => ⟨0x19, 0, 0, addr, (0 : BitVec 24) ++ byte⟩
  | .cdfRd index => ⟨0x1A, 0, 0, index, 0⟩
  | .srClear ctx => ⟨0x20, ctx, 0, 0, 0⟩
  | .srCopy dst src => ⟨0x21, dst, 0, src, 0⟩
  | .srRd ctx reg => ⟨0x22, ctx, 0, reg, 0⟩
  | .srWr ctx reg value => ⟨0x23, ctx, 0, reg, value⟩
  | .srPeek ctx ring k => ⟨0x24, ctx, 0, ring ++ k, 0⟩
  | .srPoke ctx ring k value => ⟨0x25, ctx, 0, ring ++ k, value⟩
  | .srPredict ctx x => ⟨0x28, ctx, 0, 0, x⟩
  | .srCommit ctx q => ⟨0x29, ctx, 0, 0, q⟩

/-- The encoder: the one command word of a command (R90: one encoding per command). -/
def encode (i : Instr) : Word64 :=
  joinFields (encodeFields i)

/-- A word written as bytes, most significant byte first (R93). -/
def wordBytes (w : Word64) : List Byte :=
  [w.extractLsb' 56 8, w.extractLsb' 48 8, w.extractLsb' 40 8, w.extractLsb' 32 8,
   w.extractLsb' 24 8, w.extractLsb' 16 8, w.extractLsb' 8 8, w.extractLsb' 0 8]

/-- The word a list of bytes begins with, most significant byte first (R93), and the bytes after it. -/
def takeWord : List Byte → Option (Word64 × List Byte)
  | b7 :: b6 :: b5 :: b4 :: b3 :: b2 :: b1 :: b0 :: rest =>
    some (b7 ++ b6 ++ b5 ++ b4 ++ b3 ++ b2 ++ b1 ++ b0, rest)
  | _ => none

/-- The command that the bits `w` stand for when the table gives the row `nbits` bits (bit 0 the least
significant bit of the one 64-bit word, R11; bits at or above `nbits` are zero). -/
def decodeTableWord (nbits w : Nat) : Option Instr :=
  (decode (BitVec.ofNat 64 (w % 2 ^ nbits))).toOption

end Sys2Proof
end

