-- ==== Sys2Proof/Config.lean ====
section
/-!
DEFINITION. What one instance of RCSR fixes when it is built (00_scope.md R8: the record `Params`, with
the contents of the CDF memory, 10_state.md R33), the constants that are not parameters, and the one
free value of the spec (10_state.md R57: what a `BUF` cell holds after reset).
-/
namespace Sys2Proof

/-- The implementation parameters of R8. `CDF_IMAGE` is the list of its `CDF_ENTRIES` entries; the
number of entries is the length of that list (`Params.cdfEntries`). -/
structure Params where
  /-- `BUF_BYTES`, bytes of the payload buffer. -/
  bufBytes : Nat
  /-- `CDF_IMAGE`, the entries of the CDF memory in index order (R33). -/
  cdfImage : List Word16
  /-- `N_CTX`, number of SR contexts. -/
  nCtx : Nat
  /-- `LPC_ORD_MIN`, least short-term order. -/
  lpcOrdMin : Nat
  /-- `LPC_ORD_MAX`, greatest short-term order. -/
  lpcOrdMax : Nat
  /-- `SHP_ORD_MIN`, least shaping order. -/
  shpOrdMin : Nat
  /-- `SHP_ORD_MAX`, greatest shaping order. -/
  shpOrdMax : Nat
  /-- `SLPC_DEPTH`, depth of the short-term history ring. -/
  slpcDepth : Nat
  /-- `FRAME_LEN`, the source's `frame_length`; no rule reads it but through `RING_DEPTH`'s default. -/
  frameLen : Nat
  /-- `RING_DEPTH`, depth of the long-term and shaping history rings. -/
  ringDepth : Nat
  /-- `R_CLAMP`, bound of the symmetric clamp, Q10. -/
  rClamp : Nat
  /-- `RAND_MUL`, multiplier of the dither generator. -/
  randMul : Word32
  /-- `RAND_INC`, increment of the dither generator. -/
  randInc : Word32
  /-- `SEED_FEEDBACK`, whether SR_COMMIT adds the pulse to the seed. -/
  seedFeedback : Bool
deriving DecidableEq, Repr

/-- `CDF_ENTRIES` (R8). -/
def Params.cdfEntries (p : Params) : Nat := p.cdfImage.length

/-- `CDF[i]` (R16, R33). Every rule reads it only at `i < CDF_ENTRIES`. -/
def Params.cdf (p : Params) (i : Nat) : Word16 := p.cdfImage.getD i 0

/-- `LTP_ORDER`, fixed (R8). -/
def ltpOrder : Nat := 5

/-- `DECISION_DELAY`, a host constant no rule of RCSR reads (R8). -/
def decisionDelay : Nat := 32

/-- `NB_SUBFR`, a host constant no rule of RCSR reads (R8). -/
def nbSubfr : Nat := 4

/-- The constraints column of R8. -/
def Params.valid (p : Params) : Bool :=
  decide (4 ≤ p.bufBytes ∧ p.bufBytes ≤ 65535) &&
  decide (2 ≤ p.cdfEntries ∧ p.cdfEntries ≤ 65536) &&
  decide (1 ≤ p.nCtx ∧ p.nCtx ≤ 16) &&
  decide (p.lpcOrdMin % 2 = 0 ∧ p.shpOrdMin % 2 = 0) &&
  decide (p.lpcOrdMax % 2 = 0 ∧ p.lpcOrdMin ≤ p.lpcOrdMax ∧ p.lpcOrdMax ≤ 32) &&
  decide (p.shpOrdMax % 2 = 0 ∧ p.shpOrdMin ≤ p.shpOrdMax ∧ p.shpOrdMax ≤ 32) &&
  decide (max p.lpcOrdMax p.shpOrdMax ≤ p.slpcDepth ∧ p.slpcDepth ≤ 16383) &&
  decide (1 ≤ p.frameLen) &&
  decide (5 ≤ p.ringDepth ∧ p.ringDepth ≤ 16383) &&
  decide (0 < p.rClamp ∧ p.rClamp < 2 ^ 31)

/-- The 32-entry image of 95_test_vectors.md section 2. DESIGN CHOICE (log entry 2): `CDF_IMAGE` is
OPEN in R8, and this is the image the spec's own vectors use. -/
def testCdfImage : List Word16 :=
  [0, 32768, 65535, 0, 16384, 32768, 49152, 65535, 0, 65000, 65535, 0, 100, 100, 65535, 0, 1, 65534, 65535]
    ++ List.replicate 13 0

/-- The default column of R8. -/
def Params.default : Params where
  bufBytes := 1024
  cdfImage := testCdfImage
  nCtx := 4
  lpcOrdMin := 10
  lpcOrdMax := 16
  shpOrdMin := 12
  shpOrdMax := 16
  slpcDepth := 32
  frameLen := 480
  ringDepth := 2 * 480
  rClamp := 65536
  randMul := 196314165
  randInc := 907633515
  seedFeedback := true

/-- FREE VALUE (R57, U1, log entry 5): the byte that cell `addr` of `BUF` holds after reset number
`epoch` until something writes it. It has no body: nothing can be proved of it. -/
opaque Config.bufAfterReset (epoch addr : Nat) : Byte

end Sys2Proof
end

