-- ==== Sys2Proof/Machine/State.lean ====
section
/-!
DEFINITION. The state of one RCSR instance (10_state.md R20): plain data, every register at the width
the spec gives it, with the four fields of the model's own (`params`, `port`, `resp`, `epoch`) named as
such; the state after reset (R57); the names of the exceptional outcomes (60_exceptions.md R191, R195).
-/
namespace Sys2Proof.Machine

/-- `MODE` (R30). -/
inductive RcMode where
  /-- 0: entered by reset. -/
  | idle
  /-- 1: entered by RC_ENC_INIT. -/
  | enc
  /-- 2: entered by RC_DEC_INIT. -/
  | dec
  /-- 3: entered by an RC_ENC_WRAPUP that succeeds. -/
  | fin
deriving DecidableEq, Repr

/-- The RC errors (R191), by name; their codes are `RcError.code`. -/
inductive RcError where
  /-- An encode or a wrap-up would pass `LEN`. -/
  | writeBeyondBuffer
  /-- No symbol of the table contains the coded value. -/
  | cdfOutOfRange
  /-- The post-decode check failed. -/
  | checkFailed
  /-- An init length beyond `BUF_BYTES`. -/
  | length
  /-- A decode would pull more bytes than `LEN` allows. -/
  | truncated
deriving DecidableEq, Repr

/-- The usage faults (R195), by name; their codes are `UsageFault.code`. They are next states of the
machine, not ends of a run. -/
inductive UsageFault where
  /-- UF_OPCODE. -/
  | opcode
  /-- UF_FIELD. -/
  | field
  /-- UF_CTX. -/
  | ctx
  /-- UF_ADDR. -/
  | addr
  /-- UF_MODE. -/
  | mode
  /-- UF_SYMBOL. -/
  | symbol
  /-- UF_CDF. -/
  | cdf
  /-- UF_ORDER. -/
  | order
  /-- UF_LAG. -/
  | lag
  /-- UF_SEQ. -/
  | seq
  /-- UF_CARRY. -/
  | carry
  /-- UF_RO. -/
  | ro
  /-- UF_HALTED. -/
  | halted
deriving DecidableEq, Repr

/-- The status class of a response (R87). -/
inductive Status where
  /-- 0: the command executed. -/
  | ok
  /-- 1: the sticky RC error is set. -/
  | rcError
  /-- 2: a usage fault. -/
  | fault
deriving DecidableEq, Repr

/-- What the outside can do to the block between two steps: present a command word (R2, R80) or reset
it (R220). -/
inductive HostEvent where
  /-- A command word is presented. -/
  | command (word : Word64)
  /-- The reset input is pulsed. -/
  | reset
deriving DecidableEq, Repr

/-- The cells of `BUF` written since reset: (address, byte) pairs, addresses strictly rising
(`Memory.wf`). An address that is not listed holds no written value; what it reads as is the free value
`Config.bufAfterReset` (R57, log entry 5). -/
abbrev Memory := List Host.Cell

/-- One SR context (R45): the register file of R46, the three rings of R51 (head = `peek(1)`, R50), the
counters of R52, the latches of R54 and the flag of R55. A tap register holds 16 bits (R9). -/
structure SrContext where
  /-- `A[k]`, short-term taps. -/
  a : List Word16
  /-- `AR[k]`, noise-shaping taps. -/
  ar : List Word16
  /-- `B[k]`, long-term taps. -/
  b : List Word16
  /-- `HARM`. -/
  harm : Word32
  /-- `TILT`. -/
  tilt : Word16
  /-- `LF`. -/
  lf : Word32
  /-- `OFFSET`. -/
  offset : Word32
  /-- `LPC_ORD`. -/
  lpcOrd : BitVec 8
  /-- `SHP_ORD`. -/
  shpOrd : BitVec 8
  /-- `VOICED`. -/
  voiced : Bool
  /-- `LAG`. -/
  lag : Word16
  /-- `SEED`. -/
  seed : Word32
  /-- `LFAR`. -/
  lfar : Word32
  /-- `PVALID`. -/
  pvalid : Bool
  /-- `L_LPC`. -/
  lLpc : Word32
  /-- `L_LTP`. -/
  lLtp : Word32
  /-- `L_NAR`. -/
  lNar : Word32
  /-- `L_NLF`. -/
  lNlf : Word32
  /-- `L_NLTP`. -/
  lNltp : Word32
  /-- `L_DITHER`. -/
  lDither : Word32
  /-- `L_R`. -/
  lR : Word32
  /-- `CUR_SLTP`. -/
  curSltp : Word32
  /-- `CUR_SSHP`. -/
  curSshp : Word32
  /-- ring 0, `SLPC`. -/
  slpc : List Word32
  /-- ring 1, `SLTP`. -/
  sltp : List Word32
  /-- ring 2, `SSHP`. -/
  sshp : List Word32
deriving DecidableEq, Repr

/-- A context with every register, latch, counter and ring cell 0 (R57, R147). -/
def SrContext.zero (p : Params) : SrContext where
  a := List.replicate p.lpcOrdMax 0
  ar := List.replicate p.shpOrdMax 0
  b := List.replicate ltpOrder 0
  harm := 0
  tilt := 0
  lf := 0
  offset := 0
  lpcOrd := 0
  shpOrd := 0
  voiced := false
  lag := 0
  seed := 0
  lfar := 0
  pvalid := false
  lLpc := 0
  lLtp := 0
  lNar := 0
  lNlf := 0
  lNltp := 0
  lDither := 0
  lR := 0
  curSltp := 0
  curSshp := 0
  slpc := List.replicate p.slpcDepth 0
  sltp := List.replicate p.ringDepth 0
  sshp := List.replicate p.ringDepth 0

/-- The whole machine (R20). -/
structure State where
  /-- MODEL: the instance's parameters (R8, R33); no step changes them (log entry 1). -/
  params : Params
  /-- MODEL: what the host is going to present, next first (R22; log entry 3). -/
  port : List HostEvent
  /-- MODEL: the response to the last command, `none` before the first (R86; log entry 4). -/
  resp : Option Word64
  /-- MODEL: how many resets there have been; read only to select free values (log entry 5). -/
  epoch : Nat
  /-- `BASE` (R25). -/
  base : Word32
  /-- `RANGE` (R26). -/
  range : Word16
  /-- `IX` (R27). -/
  ix : Word16
  /-- `LEN` (R28). -/
  len : Word16
  /-- `ERR` (R29). -/
  err : Bool
  /-- `ERRCODE` (R29). -/
  errCode : BitVec 4
  /-- `MODE` (R30). -/
  mode : RcMode
  /-- `BUF` (R24). -/
  buf : Memory
  /-- `HALT` (R32). -/
  halt : Bool
  /-- `FAULTCODE` (R32). -/
  faultCode : BitVec 4
  /-- `FAULTINFO` (R32). -/
  faultInfo : Word64
  /-- `sr[0] .. sr[N_CTX-1]` (R45). -/
  sr : List SrContext
deriving DecidableEq, Repr

/-- The state after reset of an instance with parameters `p` (R57, R221): every register at the value
of R57's table, no cell of `BUF` written, the CDF memory as it was built. -/
def State.afterReset (p : Params) (epoch : Nat) (port : List HostEvent) : State where
  params := p
  port := port
  resp := none
  epoch := epoch
  base := 0
  range := 0
  ix := 0
  len := 0
  err := false
  errCode := 0
  mode := .idle
  buf := []
  halt := false
  faultCode := 0
  faultInfo := 0
  sr := List.replicate p.nCtx (SrContext.zero p)

/-- The default instance right after its first reset, nothing presented yet (R57; log entries 2 to 5). -/
def State.reset : State := State.afterReset Params.default 0 []

/-- Reasons to stop a run. There are none: every exceptional outcome of RCSR is a response and a next
state (R190, R242), so no constructor exists and nothing raises one (log entry 7). -/
inductive Fault where
deriving DecidableEq, Repr

/-- Reasons to give no meaning. -/
inductive Refusal where
  /-- Raised by an arm of `exec` whose command has no meaning yet (safe: the run stops). No arm of this
  model raises it. -/
  | notModelled (mnemonic : String)
deriving DecidableEq, Repr

/-- What a step answers. -/
abbrev Out := Host.Outcome State Fault Refusal

end Sys2Proof.Machine
end

