-- ==== Sys2Proof/Machine/Flags.lean ====
section
/-!
DEFINITION. The codes and status fields of RCSR. It has no arithmetic condition flags (10_state.md R23);
what it has are the codes of R191 and R195, the encoding of `MODE` (R30), the status class (R87), the
`STATUS` word (R41) and the gates the status flags put before a command (R30, R193, R197).
-/
namespace Sys2Proof.Machine

/-- `MODE` as the two bits of R30. -/
def RcMode.code : RcMode → BitVec 2
  | .idle => 0
  | .enc => 1
  | .dec => 2
  | .fin => 3

/-- The RC error codes (R191). -/
def RcError.code : RcError → BitVec 4
  | .writeBeyondBuffer => 1
  | .cdfOutOfRange => 2
  | .checkFailed => 3
  | .length => 4
  | .truncated => 5

/-- The usage fault codes (R195). -/
def UsageFault.code : UsageFault → BitVec 4
  | .opcode => 1
  | .field => 2
  | .ctx => 3
  | .addr => 4
  | .mode => 5
  | .symbol => 6
  | .cdf => 7
  | .order => 8
  | .lag => 9
  | .seq => 10
  | .carry => 11
  | .ro => 12
  | .halted => 15

/-- The status class codes (R87). -/
def Status.code : Status → BitVec 4
  | .ok => 0
  | .rcError => 1
  | .fault => 2

/-- A flag as one bit. -/
def flagBit (b : Bool) : BitVec 1 := BitVec.ofBool b

/-- The `STATUS` CSR (R41): `FAULTCODE [11:8]`, `ERRCODE [7:4]`, `MODE [3:2]`, `HALT [1]`, `ERR [0]`. -/
def State.status (s : State) : Word32 :=
  (0 : BitVec 20) ++ s.faultCode ++ s.errCode ++ s.mode.code ++ flagBit s.halt ++ flagBit s.err

/-- RC_GET_LENGTH is legal in `ENC` and `DEC` (R30, R116). -/
def RcMode.inSession : RcMode → Bool
  | .idle => false
  | .enc => true
  | .dec => true
  | .fin => false

/-- The order check of R131 rows 3 and 4: `ord` is even and within `lo .. hi`. -/
def orderLegal (lo hi : Nat) (ord : BitVec 8) : Bool :=
  ord.toNat % 2 == 0 && decide (lo ≤ ord.toNat) && decide (ord.toNat ≤ hi)

/-- The lag check of R131 row 5: `3 ≤ LAG ≤ RING_DEPTH - 2`, said without a subtraction. -/
def lagLegal (ringDepth : Nat) (lag : Word16) : Bool :=
  decide (3 ≤ lag.toNat) && decide (lag.toNat + 2 ≤ ringDepth)

end Sys2Proof.Machine
end

