-- ==== Sys2Proof/Machine/Ops.lean ====
section
/-!
DEFINITION. The operations every command shares: reading and writing `BUF`, the rings and the contexts,
building a response (30_encoding.md R86), and TAKING AN EXCEPTIONAL OUTCOME: `raiseRcError` (R192),
`refuseErr` (R193) and `raiseUsageFault` (R196). There is no return from one (R202): the init commands
and reset leave the error and the halted state.
-/
namespace Sys2Proof.Machine

/-! ## `BUF` -/

/-- The byte last written at `addr` since reset, if any. -/
def Memory.lookup (addr : Nat) : Memory → Option Byte
  | [] => none
  | (k, v) :: rest => if k = addr then some v else Memory.lookup addr rest

/-- Write one byte, keeping the addresses strictly rising. -/
def Memory.write (addr : Nat) (byte : Byte) : Memory → Memory
  | [] => [(addr, byte)]
  | (k, v) :: rest =>
    if k = addr then (addr, byte) :: rest
    else if addr < k then (addr, byte) :: (k, v) :: rest
    else (k, v) :: Memory.write addr byte rest

/-- The canonical form: addresses strictly rising. (An unlisted address holds no written value, so no
entry can equal what it reads as.) -/
def Memory.wf : Memory → Bool
  | [] => true
  | [_] => true
  | c :: d :: rest => decide (c.1 < d.1) && Memory.wf (d :: rest)

/-- `BUF[addr]`: the byte written there, or the free value of the cell (R57, log entry 5). -/
def Memory.read (epoch : Nat) (buf : Memory) (addr : Nat) : Byte :=
  match Memory.lookup addr buf with
  | some byte => byte
  | none => Config.bufAfterReset epoch addr

/-- `BUF[addr]` of a state. -/
def State.bufByte (s : State) (addr : Nat) : Byte :=
  Memory.read s.epoch s.buf addr

/-- `P(p)`, the payload read function (R103): 0 at and beyond `LEN`. -/
def State.payloadByte (s : State) (p : Nat) : Byte :=
  if p < s.len.toNat then s.bufByte p else 0

/-! ## Rings (R50) -/

/-- `peek(k)`, `1 ≤ k ≤ depth`: the value pushed `k` pushes ago. -/
def ringPeek (ring : List Word32) (k : Nat) : Word32 :=
  ring.getD (k - 1) 0

/-- `poke(k, v)`. -/
def ringPoke (ring : List Word32) (k : Nat) (v : Word32) : List Word32 :=
  ring.set (k - 1) v

/-- `push(v)` on a ring of depth `depth`: the oldest value is dropped. -/
def ringPush (depth : Nat) (ring : List Word32) (v : Word32) : List Word32 :=
  (v :: ring).take depth

/-! ## Field updates -/

/-- Store a new `BUF`. -/
def State.withBuf (s : State) (buf : Memory) : State := { s with buf := buf }

/-- Store a response. -/
def State.withResp (s : State) (word : Word64) : State := { s with resp := some word }

/-- Store the three coder registers. -/
def State.withCoder (s : State) (base : Word32) (range ix : Word16) : State :=
  { s with base := base, range := range, ix := ix }

/-- Store `MODE`, `LEN` and the coder registers: what the two inits write besides `ERR`. -/
def State.withSession (s : State) (mode : RcMode) (base : Word32) (len : Word16) : State :=
  { s with mode := mode, base := base, range := 0xFFFF, ix := 0, len := len }

/-- Leave the session after a successful wrap-up (R118): `IX` and `MODE = FIN`. -/
def State.withFinished (s : State) (ix : Word16) : State := { s with ix := ix, mode := .fin }

/-- Set `ERR` with a code (R192). -/
def State.withErr (s : State) (e : RcError) : State := { s with err := true, errCode := e.code }

/-- Clear `ERR` and `ERRCODE` (R101, R102, R202). -/
def State.withoutErr (s : State) : State := { s with err := false, errCode := 0 }

/-- Record the first usage fault (R196). -/
def State.withFault (s : State) (f : UsageFault) (word : Word64) : State :=
  { s with halt := true, faultCode := f.code, faultInfo := word }

/-- `sr[c]`; every command reads it only at `c < N_CTX`. -/
def State.ctx (s : State) (c : Nat) : SrContext :=
  s.sr.getD c (SrContext.zero s.params)

/-- `sr[c] <- x`. -/
def State.withCtx (s : State) (c : Nat) (x : SrContext) : State := { s with sr := s.sr.set c x }

/-! ## Responses (R86) -/

/-- The response word `ST CODE R1 R0`. -/
def respWord (st : Status) (code : BitVec 8) (r1 : BitVec 20) (r0 : Word32) : Word64 :=
  st.code ++ code ++ r1 ++ r0

/-- `respond(ST, CODE, R1, R0)` (R16, R86): the command ends, the block keeps the state `s`. -/
def respond (st : Status) (code : BitVec 8) (r1 : BitVec 20) (r0 : Word32) (s : State) : Out :=
  .next (s.withResp (respWord st code r1 r0))

/-- `respond(OK, 0, 0, r0)`. -/
def respondOk (r0 : Word32) (s : State) : Out :=
  respond .ok 0 0 r0 s

/-! ## Exceptional outcomes -/

/-- `raise RcError(e)` (R192): sets `ERR` and `ERRCODE` and nothing else. -/
def raiseRcError (e : RcError) (s : State) : Out :=
  respond .rcError (e.code.setWidth 8) 0 0 (s.withErr e)

/-- The answer of a gated command while `ERR = 1` (R193): the original code, no state change. -/
def refuseErr (s : State) : Out :=
  respond .rcError (s.errCode.setWidth 8) 0 0 s

/-- `raise UsageFault(f)` by the command word `word` (R196): only the first fault since reset is
recorded; the response carries the code. -/
def raiseUsageFault (word : Word64) (f : UsageFault) (s : State) : Out :=
  respond .fault (f.code.setWidth 8) 0 0 (if s.halt then s else s.withFault f word)

/-- Steps 1 and 4 of R198 for a command on one context: refused while halted, UF_CTX for a context the
instance does not have, else `k` of the context. -/
def onContext (word : Word64) (c : Nat) (s : State) (k : SrContext → Out) : Out :=
  if s.halt then raiseUsageFault word .halted s
  else if s.params.nCtx ≤ c then raiseUsageFault word .ctx s
  else k (s.ctx c)

/-- Steps 1, 5 and 6 of R198 for an RC command that needs mode `m` and is gated by `ERR` (R193). -/
def inMode (word : Word64) (m : RcMode) (s : State) (k : Out) : Out :=
  if s.halt then raiseUsageFault word .halted s
  else if s.mode ≠ m then raiseUsageFault word .mode s
  else if s.err then refuseErr s
  else k

end Sys2Proof.Machine
end

