-- ==== Sys2Proof/Machine/Operands.lean ====
section
/-!
DEFINITION. The operand forms of RCSR: every operand is an immediate (30_encoding.md R94), and what an
index names is settled here: the CSR map (10_state.md R40), the SR register file with its widths and
access rights (R46, R47), the rings and their positions (R51, R83).
-/
namespace Sys2Proof.Machine

/-! ## CSRs -/

/-- The CSRs of R40. -/
inductive Csr where
  | id
  | version
  | status
  | faultInfoLo
  | faultInfoHi
  | rcBase
  | rcRange
  | rcIx
  | rcLen
  | capBufBytes
  | capCdfEntries
  | capNCtx
  | capRingDepth
  | capSlpcDepth
  | capOrd
deriving DecidableEq, Repr

/-- The index column of R40. -/
def csrOf (index : Nat) : Option Csr :=
  match index with
  | 0x00 => some .id
  | 0x01 => some .version
  | 0x02 => some .status
  | 0x03 => some .faultInfoLo
  | 0x04 => some .faultInfoHi
  | 0x08 => some .rcBase
  | 0x09 => some .rcRange
  | 0x0A => some .rcIx
  | 0x0B => some .rcLen
  | 0x10 => some .capBufBytes
  | 0x11 => some .capCdfEntries
  | 0x12 => some .capNCtx
  | 0x13 => some .capRingDepth
  | 0x14 => some .capSlpcDepth
  | 0x15 => some .capOrd
  | _ => none

/-- The contents column of R40; unused upper bits read 0. -/
def State.csrValue (s : State) : Csr → Word32
  | .id => 0x52435352
  | .version => 0x00000001
  | .status => s.status
  | .faultInfoLo => s.faultInfo.extractLsb' 0 32
  | .faultInfoHi => s.faultInfo.extractLsb' 32 32
  | .rcBase => s.base
  | .rcRange => s.range.setWidth 32
  | .rcIx => s.ix.setWidth 32
  | .rcLen => s.len.setWidth 32
  | .capBufBytes => (BitVec.ofNat 16 s.params.bufBytes).setWidth 32
  | .capCdfEntries => (BitVec.ofNat 17 s.params.cdfEntries).setWidth 32
  | .capNCtx => (BitVec.ofNat 5 s.params.nCtx).setWidth 32
  | .capRingDepth => (BitVec.ofNat 14 s.params.ringDepth).setWidth 32
  | .capSlpcDepth => (BitVec.ofNat 14 s.params.slpcDepth).setWidth 32
  | .capOrd =>
    BitVec.ofNat 8 s.params.shpOrdMin ++ BitVec.ofNat 8 s.params.lpcOrdMin
      ++ BitVec.ofNat 8 s.params.shpOrdMax ++ BitVec.ofNat 8 s.params.lpcOrdMax

/-! ## SR registers -/

/-- The registers of R46; a tap register carries its tap index. -/
inductive SrReg where
  | a (k : Nat)
  | ar (k : Nat)
  | b (k : Nat)
  | harm
  | tilt
  | lf
  | offset
  | lpcOrd
  | shpOrd
  | voiced
  | lag
  | seed
  | lfar
  | pvalid
  | lLpc
  | lLtp
  | lNar
  | lNlf
  | lNltp
  | lDither
  | lR
  | curSltp
  | curSshp
deriving DecidableEq, Repr

/-- The index column of R46 for an instance: a tap index at or beyond the implemented maximum is not in
the table (R46, R175). -/
def srRegOf (p : Params) (index : Nat) : Option SrReg :=
  if index < 0x20 then if index < p.lpcOrdMax then some (.a index) else none
  else if index < 0x40 then if index - 0x20 < p.shpOrdMax then some (.ar (index - 0x20)) else none
  else if index < 0x40 + ltpOrder then some (.b (index - 0x40))
  else
    match index with
    | 0x48 => some .harm
    | 0x49 => some .tilt
    | 0x4A => some .lf
    | 0x4B => some .offset
    | 0x50 => some .lpcOrd
    | 0x51 => some .shpOrd
    | 0x52 => some .voiced
    | 0x53 => some .lag
    | 0x58 => some .seed
    | 0x59 => some .lfar
    | 0x60 => some .pvalid
    | 0x61 => some .lLpc
    | 0x62 => some .lLtp
    | 0x63 => some .lNar
    | 0x64 => some .lNlf
    | 0x65 => some .lNltp
    | 0x66 => some .lDither
    | 0x67 => some .lR
    | 0x70 => some .curSltp
    | 0x71 => some .curSshp
    | _ => none

/-- A tap of a tap register file. -/
def tapOf (taps : List Word16) (k : Nat) : Word16 := taps.getD k 0

/-- The value of a register widened to 32 bits (R47): sign-extended for the s16 registers,
zero-extended for u8, u1 and u16. -/
def SrContext.readReg (c : SrContext) : SrReg → Word32
  | .a k => (tapOf c.a k).signExtend 32
  | .ar k => (tapOf c.ar k).signExtend 32
  | .b k => (tapOf c.b k).signExtend 32
  | .harm => c.harm
  | .tilt => c.tilt.signExtend 32
  | .lf => c.lf
  | .offset => c.offset
  | .lpcOrd => c.lpcOrd.setWidth 32
  | .shpOrd => c.shpOrd.setWidth 32
  | .voiced => (flagBit c.voiced).setWidth 32
  | .lag => c.lag.setWidth 32
  | .seed => c.seed
  | .lfar => c.lfar
  | .pvalid => (flagBit c.pvalid).setWidth 32
  | .lLpc => c.lLpc
  | .lLtp => c.lLtp
  | .lNar => c.lNar
  | .lNlf => c.lNlf
  | .lNltp => c.lNltp
  | .lDither => c.lDither
  | .lR => c.lR
  | .curSltp => c.curSltp
  | .curSshp => c.curSshp

/-- The context after storing the low bits of `v` in a register (R47), or `none` if the register is
read-only (R46). -/
def SrContext.writeReg (c : SrContext) (v : Word32) : SrReg → Option SrContext
  | .a k => some { c with a := c.a.set k (v.extractLsb' 0 16) }
  | .ar k => some { c with ar := c.ar.set k (v.extractLsb' 0 16) }
  | .b k => some { c with b := c.b.set k (v.extractLsb' 0 16) }
  | .harm => some { c with harm := v }
  | .tilt => some { c with tilt := v.extractLsb' 0 16 }
  | .lf => some { c with lf := v }
  | .offset => some { c with offset := v }
  | .lpcOrd => some { c with lpcOrd := v.extractLsb' 0 8 }
  | .shpOrd => some { c with shpOrd := v.extractLsb' 0 8 }
  | .voiced => some { c with voiced := v.getLsbD 0 }
  | .lag => some { c with lag := v.extractLsb' 0 16 }
  | .seed => some { c with seed := v }
  | .lfar => some { c with lfar := v }
  | .pvalid => none
  | .lLpc => none
  | .lLtp => none
  | .lNar => none
  | .lNlf => none
  | .lNltp => none
  | .lDither => none
  | .lR => none
  | .curSltp => none
  | .curSshp => none

/-- Clear `PVALID` (R55). -/
def SrContext.withoutPvalid (c : SrContext) : SrContext := { c with pvalid := false }

/-! ## Rings -/

/-- The rings of R51. -/
inductive RingId where
  | slpc
  | sltp
  | sshp
deriving DecidableEq, Repr

/-- The depth column of R51. -/
def RingId.depth (p : Params) : RingId → Nat
  | .slpc => p.slpcDepth
  | .sltp => p.ringDepth
  | .sshp => p.ringDepth

/-- The ring id column of R51; ring id 3 does not exist. -/
def ringOf (id : BitVec 2) : Option RingId :=
  match id.toNat with
  | 0 => some .slpc
  | 1 => some .sltp
  | 2 => some .sshp
  | _ => none

/-- The ring and position a command names, if both exist: `ring ≤ 2` and `1 ≤ k ≤ depth(ring)` (R94,
R177). -/
def ringPos (p : Params) (id : BitVec 2) (k : BitVec 14) : Option (RingId × Nat) :=
  match ringOf id with
  | none => none
  | some r => if 1 ≤ k.toNat ∧ k.toNat ≤ r.depth p then some (r, k.toNat) else none

/-- A ring of a context. -/
def SrContext.ring (c : SrContext) : RingId → List Word32
  | .slpc => c.slpc
  | .sltp => c.sltp
  | .sshp => c.sshp

/-- The context with one ring replaced. -/
def SrContext.withRing (c : SrContext) (r : RingId) (cells : List Word32) : SrContext :=
  match r with
  | .slpc => { c with slpc := cells }
  | .sltp => { c with sltp := cells }
  | .sshp => { c with sshp := cells }

end Sys2Proof.Machine
end

