-- ==== Sys2Proof/Machine/Access.lean ====
section
/-!
DEFINITION. The meanings of the access and system commands (42_access_commands.md). None of them looks
at `ERR`; all but NOP and CSR_RD are refused while halted (60_exceptions.md R197).
-/
namespace Sys2Proof.Machine

/-- NOP (R170): reads and writes nothing; accepted while halted. -/
def execNop (s : State) : Out :=
  respondOk 0 s

/-- CSR_RD (R171): accepted while halted. -/
def execCsrRd (csr : Word16) (s : State) : Out :=
  match csrOf csr.toNat with
  | none => raiseUsageFault (encode (.csrRd csr)) .addr s
  | some r => respondOk (s.csrValue r) s

/-- BUF_RD (R172): bounded by `BUF_BYTES`, legal in every mode. -/
def execBufRd (addr : Word16) (s : State) : Out :=
  let word := encode (.bufRd addr)
  if s.halt then raiseUsageFault word .halted s
  else if s.params.bufBytes ≤ addr.toNat then raiseUsageFault word .addr s
  else respondOk ((s.bufByte addr.toNat).setWidth 32) s

/-- BUF_WR (R173): refused in `ENC`; the mode check precedes the bounds check (R198). -/
def execBufWr (addr : Word16) (byte : Byte) (s : State) : Out :=
  let word := encode (.bufWr addr byte)
  if s.halt then raiseUsageFault word .halted s
  else if s.mode = .enc then raiseUsageFault word .mode s
  else if s.params.bufBytes ≤ addr.toNat then raiseUsageFault word .addr s
  else respondOk 0 (s.withBuf (Memory.write addr.toNat byte s.buf))

/-- CDF_RD (R174). -/
def execCdfRd (index : Word16) (s : State) : Out :=
  let word := encode (.cdfRd index)
  if s.halt then raiseUsageFault word .halted s
  else if s.params.cdfEntries ≤ index.toNat then raiseUsageFault word .addr s
  else respondOk ((s.params.cdf index.toNat).setWidth 32) s

/-- SR_RD (R175): every register of R46 can be read; `PVALID` stays. -/
def execSrRd (ctx : BitVec 4) (reg : Word16) (s : State) : Out :=
  let word := encode (.srRd ctx reg)
  onContext word ctx.toNat s fun c =>
    match srRegOf s.params reg.toNat with
    | none => raiseUsageFault word .addr s
    | some r => respondOk (c.readReg r) s

/-- SR_WR (R176): stores the low bits of `value` (R47) and clears `PVALID` (R55). -/
def execSrWr (ctx : BitVec 4) (reg : Word16) (value : Word32) (s : State) : Out :=
  let word := encode (.srWr ctx reg value)
  onContext word ctx.toNat s fun c =>
    match srRegOf s.params reg.toNat with
    | none => raiseUsageFault word .addr s
    | some r =>
      match c.writeReg value r with
      | none => raiseUsageFault word .ro s
      | some c' => respondOk 0 (s.withCtx ctx.toNat c'.withoutPvalid)

/-- SR_PEEK (R177): `PVALID` stays. -/
def execSrPeek (ctx : BitVec 4) (ring : BitVec 2) (k : BitVec 14) (s : State) : Out :=
  let word := encode (.srPeek ctx ring k)
  onContext word ctx.toNat s fun c =>
    match ringPos s.params ring k with
    | none => raiseUsageFault word .addr s
    | some (r, pos) => respondOk (ringPeek (c.ring r) pos) s

/-- SR_POKE (R178): overwrites one cell and clears `PVALID` (R55). -/
def execSrPoke (ctx : BitVec 4) (ring : BitVec 2) (k : BitVec 14) (value : Word32) (s : State) : Out :=
  let word := encode (.srPoke ctx ring k value)
  onContext word ctx.toNat s fun c =>
    match ringPos s.params ring k with
    | none => raiseUsageFault word .addr s
    | some (r, pos) =>
      respondOk 0 (s.withCtx ctx.toNat (c.withRing r (ringPoke (c.ring r) pos value)).withoutPvalid)

end Sys2Proof.Machine
end

