-- ==== Sys2Proof/Machine/Arith.lean ====
section
/-!
DEFINITION. The arithmetic primitives of 00_scope.md R13. The wrapping sums and differences, the left
shift, the logical right shift and the arithmetic right shift of R13 are the `+`, `-`, `<<<`, `>>>` and
`BitVec.sshiftRight` of the fixed width; the others are defined here. A product is formed exactly on
integers and narrowed once.
-/
namespace Sys2Proof.Machine

/-- `floor(a · h / 2^16)` for a signed 32-bit `a` and a signed 16-bit `h`: the common part of `smulwb`
and `smulwt`. -/
def smul16 (a : Word32) (h : Word16) : Word32 :=
  BitVec.ofInt 32 (a.toInt * h.toInt / 65536)

/-- `smulwb(a, b)` (R13): `b[15:0]` is the multiplier. -/
def smulwb (a b : Word32) : Word32 :=
  smul16 a (b.extractLsb' 0 16)

/-- `smulwt(a, b)` (R13): `b[31:16]` is the multiplier. -/
def smulwt (a b : Word32) : Word32 :=
  smul16 a (b.extractLsb' 16 16)

/-- `rshift_round(a, n)` (R13), for `n ≥ 2`: ties toward +infinity. -/
def rshiftRound (a : Word32) (n : Nat) : Word32 :=
  ((a.sshiftRight (n - 1)) + 1).sshiftRight 1

/-- `clz32(v)` (R13). -/
def clz32 (v : Word32) : Nat :=
  if v = 0 then 32 else 31 - Nat.log2 v.toNat

/-- `clamp(v, -bound, +bound)` of the signed value of `v` (R13, R139). -/
def clampSym (bound : Nat) (v : Word32) : Word32 :=
  if v.toInt < -(bound : Int) then BitVec.ofInt 32 (-(bound : Int))
  else if (bound : Int) < v.toInt then BitVec.ofInt 32 (bound : Int)
  else v

/-- `negate_if(m, v)` (R13), for a mask `m` of all zeros or all ones. -/
def negateIf (m v : Word32) : Word32 :=
  (v ^^^ m) - m

/-- `Σ32_{j = 0 .. n-1} f j`, the wrapping sum (R132, R134). -/
def sum32 : Nat → (Nat → Word32) → Word32
  | 0, _ => 0
  | n + 1, f => sum32 n f + f n

/-- The greatest `i ≤ n` with `f i`, if there is one (the `max S` of R111). -/
def greatestUpTo (f : Nat → Bool) : Nat → Option Nat
  | 0 => if f 0 then some 0 else none
  | n + 1 => if f (n + 1) then some (n + 1) else greatestUpTo f n

end Sys2Proof.Machine
end

