-- ==== Sys2Proof/Machine/RangeCoder.lean ====
section
/-!
DEFINITION. The range coder (40_rc_commands.md): renormalisation, carry propagation, byte emission and
pulling, the symbol search, the length function, and the meanings of the seven RC commands. Checks stand
in the order of 60_exceptions.md R198.
-/
namespace Sys2Proof.Machine

/-! ## Shared operations -/

/-- `renorm(prod)` (R106): how many bytes move, and the new range. -/
def renorm (prod : Word32) : Nat × Word16 :=
  if 2 ^ 24 ≤ prod.toNat then (0, (prod >>> 16).setWidth 16)
  else if 2 ^ 16 ≤ prod.toNat then (1, (prod >>> 8).setWidth 16)
  else (2, prod.setWidth 16)

/-- `RANGE · c` for a CDF entry `c`, exactly (below `2^32`; R105, R111). -/
def State.rangeTimes (s : State) (c : Word16) : Nat := s.range.toNat * c.toNat

/-- The width product `RANGE · (high - low)` (R105, R113). -/
def State.widthProduct (s : State) (low high : Word16) : Word32 :=
  BitVec.ofNat 32 (s.range.toNat * (high.toNat - low.toNat))

/-- There is no byte below `BUF[IX]` that could take a carry: the condition of UF_CARRY (R107). -/
def State.carryBlocked (s : State) : Bool :=
  s.ix == 0 || (List.range s.ix.toNat).all fun j => s.bufByte j == 0xFF

/-- `carry_propagate()` from position `j` down (R107): add one to `BUF[j-1]`, and go on below it as long
as the byte wrapped to 0. -/
def carryWalk (epoch : Nat) : Nat → Memory → Memory
  | 0, buf => buf
  | j + 1, buf =>
    let byte := Memory.read epoch buf j + 1
    let buf' := Memory.write j byte buf
    if byte = 0 then carryWalk epoch j buf' else buf'

/-- `BUF` after the carry, if there is one (R105, R118). -/
def State.bufAfterCarry (s : State) (carry : Bool) : Memory :=
  if carry then carryWalk s.epoch s.ix.toNat s.buf else s.buf

/-- Emit `n` bytes, each the top byte of `bn`, at `ix` and up (R108): the shifted `bn` and the new
`BUF`. -/
def emitBytes : Nat → Word32 → Nat → Memory → Word32 × Memory
  | 0, bn, _, buf => (bn, buf)
  | n + 1, bn, ix, buf => emitBytes n (bn <<< 8) (ix + 1) (Memory.write ix (bn.extractLsb' 24 8) buf)

/-- Pull `n` payload bytes from position `4 + ix` on into the bottom of `bn` (R114). -/
def pullBytes (s : State) : Nat → Word32 → Nat → Word32
  | 0, bn, _ => bn
  | n + 1, bn, ix => pullBytes s n ((bn <<< 8) ||| (s.payloadByte (4 + ix)).setWidth 32) (ix + 1)

/-- The symbol search (R111): `none` when the coded value lies outside every sub-interval. The hint has
no part in it (R112). -/
def State.findSymbol (s : State) (base nsym : Nat) : Option Nat :=
  match greatestUpTo (fun i => decide (s.rangeTimes (s.params.cdf (base + i)) ≤ s.base.toNat)) nsym with
  | none => none
  | some i => if i = nsym then none else some i

/-- `bits` of `rc_length()` (R115). -/
def State.rcBits (s : State) : Word32 :=
  BitVec.ofInt 32 (8 * (s.ix.toNat : Int) + (clz32 (s.range.setWidth 32 - 1) : Int) - 14)

/-- `bytes` of `rc_length()` (R115). -/
def State.rcBytes (s : State) : Word32 :=
  (s.rcBits + 7) >>> 3

/-- `LEN` is beyond the buffer, so that the next access could be outside `BUF`: R74 makes that UF_ADDR.
No run reaches such a state (R28; log entry 7). -/
def State.lenOutside (s : State) : Bool :=
  decide (s.params.bufBytes < s.len.toNat)

/-! ## The two inits -/

/-- RC_ENC_INIT (R101): legal in every mode. -/
def execRcEncInit (len : Word16) (s : State) : Out :=
  if s.halt then raiseUsageFault (encode (.rcEncInit len)) .halted s
  else if s.params.bufBytes < len.toNat then raiseRcError .length (s.withSession .enc 0 0)
  else respondOk 0 (s.withSession .enc 0 len).withoutErr

/-- `{ P(0), P(1), P(2), P(3) }` (R102, R62). -/
def State.seedBase (s : State) : Word32 :=
  s.payloadByte 0 ++ s.payloadByte 1 ++ s.payloadByte 2 ++ s.payloadByte 3

/-- RC_DEC_INIT (R102): legal in every mode; `P` is read with the new `LEN`. -/
def execRcDecInit (len : Word16) (s : State) : Out :=
  if s.halt then raiseUsageFault (encode (.rcDecInit len)) .halted s
  else if s.params.bufBytes < len.toNat then raiseRcError .length (s.withSession .dec 0 0)
  else respondOk 0 (s.withSession .dec (s.withSession .dec 0 len).seedBase len).withoutErr

/-! ## RC_ENCODE and RC_DECODE -/

/-- RC_ENCODE's main rule (R105) for the sub-interval `low .. high` of a symbol. -/
def encodeInterval (word : Word64) (low high : Word16) (s : State) : Out :=
  let bn := s.base + BitVec.ofNat 32 (s.rangeTimes low)
  let carry := decide (bn.toNat < s.base.toNat)
  let r := renorm (s.widthProduct low high)
  if s.len.toNat < s.ix.toNat + r.1 then raiseRcError .writeBeyondBuffer s
  else if carry && s.carryBlocked then raiseUsageFault word .carry s
  else
    let e := emitBytes r.1 bn s.ix.toNat (s.bufAfterCarry carry)
    respondOk 0 ((s.withBuf e.2).withCoder e.1 r.2 (BitVec.ofNat 16 (s.ix.toNat + r.1)))

/-- RC_ENCODE (R104, R105). -/
def execRcEncode (base nsym sym : Word16) (s : State) : Out :=
  let word := encode (.rcEncode base nsym sym)
  let low := s.params.cdf (base.toNat + sym.toNat)
  let high := s.params.cdf (base.toNat + sym.toNat + 1)
  inMode word .enc s
    (if nsym = 0 ∨ nsym.toNat ≤ sym.toNat then raiseUsageFault word .symbol s
    else if s.params.cdfEntries ≤ base.toNat + nsym.toNat ∨ s.lenOutside then raiseUsageFault word .addr s
    else if high.toNat ≤ low.toNat then raiseUsageFault word .cdf s
    else encodeInterval word low high s)

/-- RC_DECODE's main rule (R113) once the symbol is found. -/
def decodeSymbol (base sym : Nat) (s : State) : Out :=
  let low := s.params.cdf (base + sym)
  let high := s.params.cdf (base + sym + 1)
  let bn := s.base - BitVec.ofNat 32 (s.rangeTimes low)
  let r := renorm (s.widthProduct low high)
  if s.len.toNat < s.ix.toNat + r.1 then raiseRcError .truncated s
  else
    respondOk (BitVec.ofNat 32 sym)
      (s.withCoder (pullBytes s r.1 bn s.ix.toNat) r.2 (BitVec.ofNat 16 (s.ix.toNat + r.1)))

/-- RC_DECODE (R110, R111, R113); the hint is ignored (R112). -/
def execRcDecode (base nsym hint : Word16) (s : State) : Out :=
  let word := encode (.rcDecode base nsym hint)
  inMode word .dec s
    (if nsym = 0 then raiseUsageFault word .symbol s
    else if s.params.cdfEntries ≤ base.toNat + nsym.toNat ∨ s.lenOutside then raiseUsageFault word .addr s
    else
      match s.findSymbol base.toNat nsym.toNat with
      | none => raiseRcError .cdfOutOfRange s
      | some sym => decodeSymbol base.toNat sym s)

/-! ## Length, wrap-up, check -/

/-- RC_GET_LENGTH (R116): not gated by `ERR` (R193). -/
def execRcGetLength (s : State) : Out :=
  let word := encode .rcGetLength
  if s.halt then raiseUsageFault word .halted s
  else if s.mode.inSession then respond .ok 0 (s.rcBytes.setWidth 20) s.rcBits s
  else raiseUsageFault word .mode s

/-- `b` of R118: the bits of `BASE` still to store. -/
def State.bitsToStore (s : State) : Nat :=
  (s.rcBits - BitVec.ofNat 32 (8 * s.ix.toNat)).toNat

/-- The rounded and masked 25-bit value `b24` of R118. -/
def roundedBase (base : Word32) (b : Nat) : Word32 :=
  ((base >>> 8) + ((0x00800000 : Word32) >>> (b - 1))) &&& ((0xFFFFFFFF : Word32) <<< (24 - b))

/-- The bytes R118 stores at `ix`: one, and a second when `b > 8`. -/
def storeRounded (b24 : Word32) (b ix : Nat) (buf : Memory) : Memory :=
  let one := Memory.write ix (b24.extractLsb' 16 8) buf
  if 8 < b then Memory.write (ix + 1) (b24.extractLsb' 8 8) one else one

/-- The padding mask `0xFF >> (bits AND 7)` (R118, R120). -/
def paddingMask (bits : Word32) : Byte :=
  (0xFF : Byte) >>> (bits.toNat % 8)

/-- Pad the last byte with ones when `bits` is not a multiple of 8 (R118). -/
def padLast (epoch : Nat) (bits : Word32) (last : Nat) (buf : Memory) : Memory :=
  if bits.toNat % 8 = 0 then buf
  else Memory.write last (Memory.read epoch buf last ||| paddingMask bits) buf

/-- RC_ENC_WRAPUP after its checks (R118). -/
def wrapUp (word : Word64) (s : State) : Out :=
  let b := s.bitsToStore
  let nw := if b ≤ 8 then 1 else 2
  let b24 := roundedBase s.base b
  let carry := b24.getLsbD 24
  if s.len.toNat < s.ix.toNat + nw then raiseRcError .writeBeyondBuffer s
  else if carry && s.carryBlocked then raiseUsageFault word .carry s
  else
    let stored := storeRounded b24 b s.ix.toNat (s.bufAfterCarry carry)
    let padded := padLast s.epoch s.rcBits (s.ix.toNat + nw - 1) stored
    respond .ok 0 (s.rcBytes.setWidth 20) s.rcBits
      ((s.withBuf padded).withFinished (BitVec.ofNat 16 (s.ix.toNat + nw)))

/-- RC_ENC_WRAPUP (R118). -/
def execRcEncWrapup (s : State) : Out :=
  let word := encode .rcEncWrapup
  inMode word .enc s
    (if s.lenOutside then raiseUsageFault word .addr s else wrapUp word s)

/-- RC_CHECK (R120). -/
def execRcCheck (s : State) : Out :=
  let word := encode .rcCheck
  let mask := paddingMask s.rcBits
  inMode word .dec s
    (if s.lenOutside then raiseUsageFault word .addr s
    else if s.len.toNat < s.rcBytes.toNat then raiseRcError .checkFailed s
    else if s.rcBits.toNat % 8 ≠ 0 ∧ s.bufByte (s.rcBytes.toNat - 1) &&& mask ≠ mask then
      raiseRcError .checkFailed s
    else respondOk 0 s)

end Sys2Proof.Machine
end

