-- ==== Sys2Proof/Machine/Synthesis.lean ====
section
/-!
DEFINITION. The synthesis recursion (41_sr_commands.md): the dither generator, the five terms, the
residual, the reconstruction, and the meanings of SR_PREDICT, SR_COMMIT, SR_COPY and SR_CLEAR.
-/
namespace Sys2Proof.Machine

/-! ## SR_PREDICT -/

/-- `seed'` (R133). -/
def nextSeed (p : Params) (seed : Word32) : Word32 :=
  p.randInc + seed * p.randMul

/-- The dither mask of an advanced seed (R133): its bit 31, replicated. -/
def ditherMask (seed : Word32) : Word32 :=
  if seed.getLsbD 31 then 0xFFFFFFFF else 0x00000000

/-- A 16-bit tap as an operand of `smulwb`. -/
def tapWord (taps : List Word16) (k : Nat) : Word32 :=
  (tapOf taps k).signExtend 32

/-- Term (1), short-term prediction (R134). -/
def SrContext.termLpc (c : SrContext) : Word32 :=
  sum32 c.lpcOrd.toNat fun j => smulwb (ringPeek c.slpc (j + 1)) (tapWord c.a j)

/-- Term (2), long-term prediction (R135). -/
def SrContext.termLtp (c : SrContext) : Word32 :=
  if c.voiced then
    sum32 ltpOrder fun j => smulwb (ringPeek c.sltp (c.lag.toNat - 2 + j)) (tapWord c.b j)
  else 0

/-- Term (3), AR shaping feedback and the carried tilt term (R136). -/
def SrContext.termNar (c : SrContext) : Word32 :=
  (sum32 c.shpOrd.toNat fun j => smulwb (ringPeek c.slpc (j + 1)) (tapWord c.ar j)).sshiftRight 1
    + smulwb c.lfar (c.tilt.signExtend 32)

/-- Term (4), low-frequency shaping (R137). -/
def SrContext.termNlf (c : SrContext) : Word32 :=
  smulwb (ringPeek c.sshp 1) c.lf <<< 2 + smulwt c.lfar c.lf

/-- Term (5), harmonic shaping (R138). -/
def SrContext.termNltp (c : SrContext) : Word32 :=
  if c.voiced then
    (smulwb (ringPeek c.sshp (c.lag.toNat - 1) + ringPeek c.sshp (c.lag.toNat + 1)) c.harm
      + smulwt (ringPeek c.sshp c.lag.toNat) c.harm) <<< 6
  else 0

/-- `t` of R139: the prediction less the shaping feedback, Q10. -/
def SrContext.prediction (c : SrContext) : Word32 :=
  (c.termLtp - c.termNltp).sshiftRight 4 + c.termLpc - c.termNar - c.termNlf

/-- `r` of R139: difference, dither, offset, clamp. -/
def SrContext.residual (p : Params) (c : SrContext) (x : Word32) : Word32 :=
  clampSym p.rClamp (negateIf (ditherMask (nextSeed p c.seed)) (x - c.prediction) - c.offset)

/-- The writes of R140. -/
def SrContext.predicted (p : Params) (c : SrContext) (x : Word32) : SrContext :=
  { c with
    seed := nextSeed p c.seed
    lLpc := c.termLpc
    lLtp := c.termLtp
    lNar := c.termNar
    lNlf := c.termNlf
    lNltp := c.termNltp
    lDither := ditherMask (nextSeed p c.seed)
    lR := c.residual p x
    pvalid := true }

/-- SR_PREDICT (R131 to R140). -/
def execSrPredict (ctx : BitVec 4) (x : Word32) (s : State) : Out :=
  let word := encode (.srPredict ctx x)
  let p := s.params
  onContext word ctx.toNat s fun c =>
    if c.pvalid then raiseUsageFault word .seq s
    else if !orderLegal p.lpcOrdMin p.lpcOrdMax c.lpcOrd then raiseUsageFault word .order s
    else if !orderLegal p.shpOrdMin p.shpOrdMax c.shpOrd then raiseUsageFault word .order s
    else if c.voiced && !lagLegal p.ringDepth c.lag then raiseUsageFault word .lag s
    else respondOk (c.residual p x) (s.withCtx ctx.toNat (c.predicted p x))

/-! ## SR_COMMIT -/

/-- `exc` of R142. -/
def SrContext.excitation (c : SrContext) (q : Word32) : Word32 :=
  negateIf c.lDither (q <<< 10 + c.offset)

/-- `lpc_exc` of R142. -/
def SrContext.lpcExcitation (c : SrContext) (q : Word32) : Word32 :=
  c.excitation q + rshiftRound c.lLtp 4

/-- `xq` of R142. -/
def SrContext.reconstructed (c : SrContext) (q : Word32) : Word32 :=
  c.lpcExcitation q + c.lLpc

/-- The writes of R143, R144 and R145. -/
def SrContext.committed (p : Params) (c : SrContext) (q : Word32) : SrContext :=
  let xq := c.reconstructed q
  let slf := xq - c.lNar
  { c with
    slpc := ringPush p.slpcDepth c.slpc (xq <<< 4)
    lfar := slf <<< 2
    sshp := ringPush p.ringDepth c.sshp (slf - c.lNlf)
    sltp := ringPush p.ringDepth c.sltp (c.lpcExcitation q <<< 6)
    curSltp := c.curSltp + 1
    curSshp := c.curSshp + 1
    seed := if p.seedFeedback then c.seed + q else c.seed
    pvalid := false }

/-- SR_COMMIT (R141 to R145). -/
def execSrCommit (ctx : BitVec 4) (q : Word32) (s : State) : Out :=
  let word := encode (.srCommit ctx q)
  onContext word ctx.toNat s fun c =>
    if c.pvalid then respondOk (c.reconstructed q) (s.withCtx ctx.toNat (c.committed s.params q))
    else raiseUsageFault word .seq s

/-! ## SR_COPY and SR_CLEAR -/

/-- SR_COPY (R146): `CTX`, then `A`, are checked (R198). -/
def execSrCopy (dst : BitVec 4) (src : Word16) (s : State) : Out :=
  let word := encode (.srCopy dst src)
  onContext word dst.toNat s fun _ =>
    if s.params.nCtx ≤ src.toNat then raiseUsageFault word .ctx s
    else respondOk 0 (s.withCtx dst.toNat (s.ctx src.toNat))

/-- SR_CLEAR (R147): the reset state of one context. -/
def execSrClear (ctx : BitVec 4) (s : State) : Out :=
  let word := encode (.srClear ctx)
  onContext word ctx.toNat s fun _ =>
    respondOk 0 (s.withCtx ctx.toNat (SrContext.zero s.params))

end Sys2Proof.Machine
end

