-- ==== Sys2Proof/Machine/Dispatch.lean ====
section
/-!
DEFINITION. The one dispatch: one arm per command of 30_encoding.md R84, each a direct call of its meaning.
-/
namespace Sys2Proof.Machine

/-- The effect of a command on the block. -/
def exec (i : Instr) (s : State) : Host.Outcome State Fault Refusal :=
  match i with
  | .nop => Sys2Proof.Machine.execNop s
  | .csrRd csr => Sys2Proof.Machine.execCsrRd csr s
  | .rcEncInit len => Sys2Proof.Machine.execRcEncInit len s
  | .rcDecInit len => Sys2Proof.Machine.execRcDecInit len s
  | .rcEncode base nsym sym => Sys2Proof.Machine.execRcEncode base nsym sym s
  | .rcDecode base nsym hint => Sys2Proof.Machine.execRcDecode base nsym hint s
  | .rcGetLength => Sys2Proof.Machine.execRcGetLength s
  | .rcEncWrapup => Sys2Proof.Machine.execRcEncWrapup s
  | .rcCheck => Sys2Proof.Machine.execRcCheck s
  | .bufRd addr => Sys2Proof.Machine.execBufRd addr s
  | .bufWr addr byte => Sys2Proof.Machine.execBufWr addr byte s
  | .cdfRd index => Sys2Proof.Machine.execCdfRd index s
  | .srClear ctx => Sys2Proof.Machine.execSrClear ctx s
  | .srCopy dst src => Sys2Proof.Machine.execSrCopy dst src s
  | .srRd ctx reg => Sys2Proof.Machine.execSrRd ctx reg s
  | .srWr ctx reg value => Sys2Proof.Machine.execSrWr ctx reg value s
  | .srPeek ctx ring k => Sys2Proof.Machine.execSrPeek ctx ring k s
  | .srPoke ctx ring k value => Sys2Proof.Machine.execSrPoke ctx ring k value s
  | .srPredict ctx x => Sys2Proof.Machine.execSrPredict ctx x s
  | .srCommit ctx q => Sys2Proof.Machine.execSrCommit ctx q s

end Sys2Proof.Machine
end

