-- ==== Sys2Proof/Machine/Present.lean ====
section
/-!
DEFINITION. What one event from outside does to the block: presenting a command word (60_exceptions.md
R198 steps 1 to 3, then the command's own meaning) and reset (70_reset_and_hazards.md R220, R221).
-/
namespace Sys2Proof.Machine

/-- The usage fault a word that is no command raises (R88, R195). -/
def faultOfDecode : DecodeError → UsageFault
  | .opcode => .opcode
  | .field => .field

/-- NOP and CSR_RD are the opcodes a halted block still looks at (R197, R198 step 1). -/
def acceptedWhileHalted (word : Word64) : Bool :=
  (splitFields word).opc == 0x00 || (splitFields word).opc == 0x01

/-- Present one command word (R198): a word that decodes runs its meaning (which makes the halt check
itself); of the others, a halted block answers UF_HALTED unless `OPC` is that of NOP or CSR_RD, and
then the decoder's fault is raised. -/
def presentWord (word : Word64) (s : State) : Out :=
  match decode word with
  | .ok i => exec i s
  | .error e =>
    if s.halt && !acceptedWhileHalted word then raiseUsageFault word .halted s
    else raiseUsageFault word (faultOfDecode e) s

/-- Reset the block (R220, R221): everything R57 lists; the instance's parameters and what the host
still has to present stay, and the next epoch of unwritten `BUF` cells begins (log entry 6). -/
def State.resetBlock (s : State) : State :=
  State.afterReset s.params (s.epoch + 1) s.port

/-- The host's side of the port after the event at its head has been taken. -/
def State.withPort (s : State) (port : List HostEvent) : State := { s with port := port }

/-- One event. -/
def takeEvent (e : HostEvent) (s : State) : Out :=
  match e with
  | .command word => presentWord word s
  | .reset => .next s.resetBlock

/-- The command word whose low `nbits` bits are those of `w`, every bit above them 0. -/
def tableWord (nbits w : Nat) : Word64 := BitVec.ofNat 64 (w % 2 ^ nbits)

end Sys2Proof.Machine
end

