-- ==== Sys2Proof/Machine/Step.lean ====
section
/-!
DEFINITION. One step: the next event of the host is taken from the port and handled; with nothing
presented the block is idle and keeps all its state (60_exceptions.md R200, R210; 10_state.md R22).
-/
namespace Sys2Proof.Machine

/-- One step of the block (R19, R22, R200, R240: one step per command). -/
def step (s : State) : Host.Outcome State Fault Refusal :=
  match s.port with
  | [] => .next s
  | e :: rest => takeEvent e (s.withPort rest)

/-- `s` with this command word as the next event the host presents (log entry 3). -/
def State.withFetchWord (s : State) (nbits w : Nat) : State :=
  s.withPort (.command (tableWord nbits w) :: s.port)

end Sys2Proof.Machine
end

