-- ==== Sys2Proof/Safety.lean ====
section
/-!
DEFINITION. What counts as a good state of RCSR, in the terms the statements use: the shape of its lists,
the invariants 10_state.md claims of its registers (`State.Inv`), and the bound on the encoder's coding
interval that makes UF_CARRY unreachable (40_rc_commands.md R107).
-/
namespace Sys2Proof.Machine

/-! ## Contexts -/

/-- Every tap register file and ring of the context has the size the instance gives it (R46, R51). -/
def SrContext.shaped (p : Params) (c : SrContext) : Bool :=
  c.a.length == p.lpcOrdMax && c.ar.length == p.shpOrdMax && c.b.length == ltpOrder &&
  c.slpc.length == p.slpcDepth && c.sltp.length == p.ringDepth && c.sshp.length == p.ringDepth

/-- The orders, and the lag when voiced, are ones SR_PREDICT accepts (R131). -/
def SrContext.configured (p : Params) (c : SrContext) : Bool :=
  orderLegal p.lpcOrdMin p.lpcOrdMax c.lpcOrd && orderLegal p.shpOrdMin p.shpOrdMax c.shpOrd &&
  (!c.voiced || lagLegal p.ringDepth c.lag)

/-- A good context: shaped; `PVALID` proves the configuration was accepted (R141); the latched dither
mask is one of the two masks of R133; the latched residual is within the clamp (R139). -/
def SrContext.good (p : Params) (c : SrContext) : Bool :=
  c.shaped p && (!c.pvalid || c.configured p) &&
  (c.lDither == 0 || c.lDither == 0xFFFFFFFF) &&
  decide (-(p.rClamp : Int) ≤ c.lR.toInt) && decide (c.lR.toInt ≤ (p.rClamp : Int))

/-! ## The whole block -/

/-- Every cell of `BUF` that is listed exists (R60), and the list is in canonical form. -/
def State.bufGood (s : State) : Bool :=
  Memory.wf s.buf && s.buf.all fun c => decide (c.1 < s.params.bufBytes)

/-- The invariants of the spec over all states that a run reaches. -/
structure State.Inv (s : State) : Prop where
  /-- The parameters meet the constraints of R8. -/
  paramsValid : s.params.valid = true
  /-- `BUF` is in canonical form and within its address range (R60, R74). -/
  bufGood : s.bufGood = true
  /-- `LEN ≤ BUF_BYTES` (R28). -/
  lenLe : s.len.toNat ≤ s.params.bufBytes
  /-- `IX ≤ LEN` (R27, R31 item 1). -/
  ixLe : s.ix.toNat ≤ s.len.toNat
  /-- `RANGE ≥ 256` in a session (R31 item 2). -/
  rangeGe : s.mode.inSession = true → 256 ≤ s.range.toNat
  /-- `ERRCODE` is 0 exactly when `ERR` is 0 (R29). -/
  errCodeIff : s.errCode = 0 ↔ s.err = false
  /-- `ERRCODE` is one of the codes of R191. -/
  errCodeLe : s.errCode.toNat ≤ 5
  /-- Before the first usage fault nothing is recorded (R32). -/
  runningClear : s.halt = false → s.faultCode = 0 ∧ s.faultInfo = 0
  /-- A halted block holds the code of its first usage fault, which is never UF_HALTED (R32, R196). -/
  haltedCode : s.halt = true → 1 ≤ s.faultCode.toNat ∧ s.faultCode.toNat ≤ 12
  /-- In `IDLE` the RC registers hold their reset values (R57). -/
  idleClear : s.mode = .idle →
    s.base = 0 ∧ s.range = 0 ∧ s.ix = 0 ∧ s.len = 0 ∧ s.err = false
  /-- In an encode session every byte below `IX` has been written (R107, U1). -/
  encWritten : s.mode = .enc → ∀ j, j < s.ix.toNat → (Memory.lookup j s.buf).isSome = true
  /-- There are `N_CTX` contexts (R45). -/
  ctxCount : s.sr.length = s.params.nCtx
  /-- Every context is good. -/
  ctxGood : ∀ c ∈ s.sr, c.good s.params = true

/-! ## The encoder's coding interval -/

/-- The first `n` bytes of `f` read as one big-endian number (R62). -/
def bytesBig (f : Nat → Byte) : Nat → Nat
  | 0 => 0
  | n + 1 => bytesBig f n * 256 + (f n).toNat

/-- The emitted bytes followed by `BASE`, read as one big-endian number: the low end of the coding
interval on the scale of `BASE` (R107). -/
def State.codedLow (s : State) : Nat :=
  bytesBig s.bufByte s.ix.toNat * 2 ^ 32 + s.base.toNat

/-- In an encode session the coding interval lies inside the initial interval `[0, 0xFFFF·2^16)` scaled
by `2^(8·IX)` (R107). -/
def State.EncoderInterval (s : State) : Prop :=
  s.mode = .enc →
    s.codedLow + s.range.toNat * 2 ^ 16 ≤ 0xFFFF * 2 ^ 16 * 256 ^ s.ix.toNat

end Sys2Proof.Machine
end

