-- ==== Sys2Proof/Certificates/Slice0/Obligations.lean ====
section
/-!
DEFINITION. The statements for the provers. `Sys2Proof.Claims` holds the words they are said in, written
from the spec on integers and tables, apart from the meanings they speak of.
-/

namespace Sys2Proof.Claims

open Sys2Proof.Machine

/-! ## Responses and exceptional outcomes -/

/-- The response `OK` with results `r1` and `r0` (30_encoding.md R86). -/
def okWord (r1 r0 : Nat) : Word64 := BitVec.ofNat 64 (r1 * 2 ^ 32 + r0)

/-- The response `RC_ERROR` with a code. -/
def errWord (code : Nat) : Word64 := BitVec.ofNat 64 (2 ^ 60 + code * 2 ^ 52)

/-- The response `FAULT` with a code. -/
def faultWord (code : Nat) : Word64 := BitVec.ofNat 64 (2 * 2 ^ 60 + code * 2 ^ 52)

/-- `s` after a command that changed nothing and answered `word`. -/
def answered (s : State) (word : Word64) : State := { s with resp := some word }

/-- `s`, not halted, after the command word `word` raised the usage fault `code` (60_exceptions.md R196). -/
def faulted (s : State) (word : Word64) (code : Nat) : State :=
  { s with halt := true, faultCode := BitVec.ofNat 4 code, faultInfo := word, resp := some (faultWord code) }

/-- `s` after a command raised the RC error `code` (60_exceptions.md R192). -/
def rcFailed (s : State) (code : Nat) : State :=
  { s with err := true, errCode := BitVec.ofNat 4 code, resp := some (errWord code) }

/-- The status class of a response. -/
def classOf (word : Word64) : Nat := word.toNat / 2 ^ 60

/-- The code of a response. -/
def codeOf (word : Word64) : Nat := word.toNat / 2 ^ 52 % 2 ^ 8

/-- The second result of a response. -/
def r1Of (word : Word64) : Nat := word.toNat / 2 ^ 32 % 2 ^ 20

/-- The first result of a response. -/
def r0Of (word : Word64) : Nat := word.toNat % 2 ^ 32

/-! ## Runs -/

/-- The state after a command. -/
def after (i : Instr) (s : State) : State :=
  match exec i s with
  | .next t => t
  | .fault _ => s
  | .refused _ => s

/-- The state after a list of commands. -/
def runAll : List Instr → State → State
  | [], s => s
  | i :: rest, s => runAll rest (after i s)

/-- The responses to a list of commands, in order. -/
def answers : List Instr → State → List (Option Word64)
  | [], _ => []
  | i :: rest, s => (after i s).resp :: answers rest (after i s)

/-! ## Command words -/

/-- The 20 opcodes of 30_encoding.md R84, each with the bits of the word its row does not use. -/
def unusedBits : List (Nat × Word64) :=
  [(0x00, 0x00FFFFFFFFFFFFFF), (0x01, 0x00FF0000FFFFFFFF), (0x10, 0x00FF0000FFFFFFFF),
   (0x11, 0x00FF0000FFFFFFFF), (0x12, 0x00FF000000000000), (0x13, 0x00FF000000000000),
   (0x14, 0x00FFFFFFFFFFFFFF), (0x15, 0x00FFFFFFFFFFFFFF), (0x16, 0x00FFFFFFFFFFFFFF),
   (0x18, 0x00FF0000FFFFFFFF), (0x19, 0x00FF0000FFFFFF00), (0x1A, 0x00FF0000FFFFFFFF),
   (0x20, 0x000FFFFFFFFFFFFF), (0x21, 0x000F0000FFFFFFFF), (0x22, 0x000F0000FFFFFFFF),
   (0x23, 0x000F000000000000), (0x24, 0x000F0000FFFFFFFF), (0x25, 0x000F000000000000),
   (0x28, 0x000FFFFF00000000), (0x29, 0x000FFFFF00000000)]

/-- `OPC` of a word. -/
def opcOf (word : Word64) : Nat := word.toNat / 2 ^ 56

/-- `CTX` of a word. -/
def ctxOf (word : Word64) : Nat := word.toNat / 2 ^ 52 % 16

/-- `A` of a word. -/
def aOf (word : Word64) : Nat := word.toNat / 2 ^ 32 % 2 ^ 16

/-- The opcode is one of those that name a context: the group `0x2` (30_encoding.md R85). -/
def usesCtx (word : Word64) : Prop := opcOf word / 16 = 2

/-- The words whose opcode is assigned and whose unused bits are all zero. -/
def legalWord (word : Word64) : Prop :=
  ∃ row ∈ unusedBits, opcOf word = row.1 ∧ word &&& row.2 = 0

/-- A command of the SR unit (group `0x2`). -/
def isSr : Instr → Bool
  | .nop => false
  | .csrRd _ => false
  | .rcEncInit _ => false
  | .rcDecInit _ => false
  | .rcEncode _ _ _ => false
  | .rcDecode _ _ _ => false
  | .rcGetLength => false
  | .rcEncWrapup => false
  | .rcCheck => false
  | .bufRd _ => false
  | .bufWr _ _ => false
  | .cdfRd _ => false
  | .srClear _ => true
  | .srCopy _ _ => true
  | .srRd _ _ => true
  | .srWr _ _ _ => true
  | .srPeek _ _ _ => true
  | .srPoke _ _ _ _ => true
  | .srPredict _ _ => true
  | .srCommit _ _ => true

/-- A command of the RC unit or its memories (group `0x1`). -/
def isRc : Instr → Bool
  | .nop => false
  | .csrRd _ => false
  | i => !isSr i

/-- The contexts a command names, the one it writes first. -/
def names : Instr → List Nat
  | .srClear ctx => [ctx.toNat]
  | .srCopy dst src => [dst.toNat, src.toNat]
  | .srRd ctx _ => [ctx.toNat]
  | .srWr ctx _ _ => [ctx.toNat]
  | .srPeek ctx _ _ => [ctx.toNat]
  | .srPoke ctx _ _ _ => [ctx.toNat]
  | .srPredict ctx _ => [ctx.toNat]
  | .srCommit ctx _ => [ctx.toNat]
  | _ => []

/-- The modes a command is legal in (10_state.md R30). -/
def legalModes : Instr → List RcMode
  | .rcEncode _ _ _ => [.enc]
  | .rcEncWrapup => [.enc]
  | .rcDecode _ _ _ => [.dec]
  | .rcCheck => [.dec]
  | .rcGetLength => [.enc, .dec]
  | .bufWr _ _ => [.idle, .dec, .fin]
  | _ => [.idle, .enc, .dec, .fin]

/-! ## Registers -/

/-- The number of a mode (10_state.md R30). -/
def modeNumber : RcMode → Nat
  | .idle => 0
  | .enc => 1
  | .dec => 2
  | .fin => 3

/-- The `STATUS` word as a number (10_state.md R41). -/
def statusNumber (s : State) : Nat :=
  s.err.toNat + 2 * s.halt.toNat + 4 * modeNumber s.mode + 16 * s.errCode.toNat + 256 * s.faultCode.toNat

/-- The table of 10_state.md R40: index and contents. -/
def csrs (s : State) : List (Nat × Nat) :=
  [(0x00, 0x52435352), (0x01, 1), (0x02, statusNumber s),
   (0x03, s.faultInfo.toNat % 2 ^ 32), (0x04, s.faultInfo.toNat / 2 ^ 32),
   (0x08, s.base.toNat), (0x09, s.range.toNat), (0x0A, s.ix.toNat), (0x0B, s.len.toNat),
   (0x10, s.params.bufBytes), (0x11, s.params.cdfEntries), (0x12, s.params.nCtx),
   (0x13, s.params.ringDepth), (0x14, s.params.slpcDepth),
   (0x15, s.params.lpcOrdMax + 2 ^ 8 * s.params.shpOrdMax + 2 ^ 16 * s.params.lpcOrdMin
      + 2 ^ 24 * s.params.shpOrdMin)]

/-- Tap `k` as a signed number. -/
def tap (taps : List Word16) (k : Nat) : Int := (taps.getD k 0).toInt

/-- The table of 10_state.md R46: index and value, the s16 registers signed, the others as numbers. -/
def regs (p : Params) (c : SrContext) : List (Nat × Int) :=
  (List.range p.lpcOrdMax).map (fun k => (k, tap c.a k)) ++
  (List.range p.shpOrdMax).map (fun k => (0x20 + k, tap c.ar k)) ++
  (List.range 5).map (fun k => (0x40 + k, tap c.b k)) ++
  [(0x48, (c.harm.toNat : Int)), (0x49, c.tilt.toInt), (0x4A, (c.lf.toNat : Int)),
   (0x4B, (c.offset.toNat : Int)), (0x50, (c.lpcOrd.toNat : Int)), (0x51, (c.shpOrd.toNat : Int)),
   (0x52, (c.voiced.toNat : Int)), (0x53, (c.lag.toNat : Int)), (0x58, (c.seed.toNat : Int)),
   (0x59, (c.lfar.toNat : Int)), (0x60, (c.pvalid.toNat : Int)), (0x61, (c.lLpc.toNat : Int)),
   (0x62, (c.lLtp.toNat : Int)), (0x63, (c.lNar.toNat : Int)), (0x64, (c.lNlf.toNat : Int)),
   (0x65, (c.lNltp.toNat : Int)), (0x66, (c.lDither.toNat : Int)), (0x67, (c.lR.toNat : Int)),
   (0x70, (c.curSltp.toNat : Int)), (0x71, (c.curSshp.toNat : Int))]

/-- The index is in the table of 10_state.md R46. -/
def isReg (p : Params) (index : Nat) : Prop :=
  index ∈ (regs p (SrContext.zero p)).map Prod.fst

/-- The indices marked RO in that table. -/
def readOnly : List Nat := [0x60, 0x61, 0x62, 0x63, 0x64, 0x65, 0x66, 0x67, 0x70, 0x71]

/-- What a register of that table holds after `v` is written to it (10_state.md R47). -/
def stored (index : Nat) (v : Word32) : Int :=
  if index < 0x48 ∨ index = 0x49 then (v.setWidth 16).toInt
  else if index = 0x50 ∨ index = 0x51 then (v.toNat % 2 ^ 8 : Nat)
  else if index = 0x52 then (v.toNat % 2 : Nat)
  else if index = 0x53 then (v.toNat % 2 ^ 16 : Nat)
  else (v.toNat : Int)

/-! ## The range coder on numbers -/

/-- The bytes moved for a width product (40_rc_commands.md R106). -/
def moved (prod : Nat) : Nat :=
  if 2 ^ 24 ≤ prod then 0 else if 2 ^ 16 ≤ prod then 1 else 2

/-- The range after renormalisation (40_rc_commands.md R106). -/
def newRange (prod : Nat) : Nat :=
  if 2 ^ 24 ≤ prod then prod / 2 ^ 16 else if 2 ^ 16 ≤ prod then prod / 2 ^ 8 else prod

/-- A CDF entry as a number. -/
def entry (s : State) (i : Nat) : Nat := (s.params.cdf i).toNat

/-- There is no byte below `BUF[IX]` that can take a carry (40_rc_commands.md R107). -/
def noRoomForCarry (s : State) : Prop := ∀ j, j < s.ix.toNat → s.bufByte j = 0xFF

/-- From `s` to `t` a carry walked back over bytes FF to the first byte that could take it (R107). -/
def carryWalked (s t : State) : Prop :=
  ∃ j, j < s.ix.toNat ∧ s.bufByte j ≠ 0xFF ∧ (t.bufByte j).toNat = (s.bufByte j).toNat + 1 ∧
    (∀ a, j < a → a < s.ix.toNat → s.bufByte a = 0xFF ∧ t.bufByte a = 0) ∧
    (∀ a, a < j → t.bufByte a = s.bufByte a)

/-- `b` is the second term of `bits` for this range (the table of 40_rc_commands.md R115). -/
def lengthTerm (range b : Nat) : Prop :=
  2 ≤ b ∧ b ≤ 10 ∧ 2 ^ (17 - b) < range ∧ range ≤ 2 ^ (18 - b)

/-- The bytes that hold `b` bits. -/
def bytesFor (b : Nat) : Nat := if b ≤ 8 then 1 else 2

/-- `P(p)` as a number (40_rc_commands.md R103), with a given length. -/
def payload (s : State) (len p : Nat) : Nat := if p < len then (s.bufByte p).toNat else 0

/-- What R111 calls the decoded symbol. -/
def isDecoded (s : State) (base nsym sym : Nat) : Prop :=
  sym < nsym ∧ s.range.toNat * entry s (base + sym) ≤ s.base.toNat ∧
  ∀ j, sym < j → j ≤ nsym → s.base.toNat < s.range.toNat * entry s (base + j)

/-! ## The recursion on integers -/

/-- `wrap32` (00_scope.md R12) as a pattern. -/
def wrap (v : Int) : Word32 := BitVec.ofInt 32 v

/-- `floor(a · h / 2^16)`. -/
def mulShift (a h : Int) : Int := a * h / 2 ^ 16

/-- The signed low half of a packed pair. -/
def lowHalf (v : Word32) : Int := (v.setWidth 16).toInt

/-- The signed high half of a packed pair. -/
def highHalf (v : Word32) : Int := ((v >>> 16).setWidth 16).toInt

/-- `peek(k)` as a signed number. -/
def cell (ring : List Word32) (k : Nat) : Int := (ring.getD (k - 1) 0).toInt

/-- The advanced seed (41_sr_commands.md R133). -/
def seedAfter (p : Params) (seed : Word32) : Word32 :=
  BitVec.ofNat 32 (p.randInc.toNat + seed.toNat * p.randMul.toNat)

/-- The sign bit of the advanced seed is set. -/
def dithers (p : Params) (seed : Word32) : Bool := decide (2 ^ 31 ≤ (seedAfter p seed).toNat)

/-- Term (1) (R134). -/
def lpcTerm (c : SrContext) : Word32 :=
  wrap (∑ j ∈ Finset.range c.lpcOrd.toNat, mulShift (cell c.slpc (j + 1)) (tap c.a j))

/-- Term (2) (R135). -/
def ltpTerm (c : SrContext) : Word32 :=
  if c.voiced then
    wrap (mulShift (cell c.sltp (c.lag.toNat - 2)) (tap c.b 0)
      + mulShift (cell c.sltp (c.lag.toNat - 1)) (tap c.b 1)
      + mulShift (cell c.sltp c.lag.toNat) (tap c.b 2)
      + mulShift (cell c.sltp (c.lag.toNat + 1)) (tap c.b 3)
      + mulShift (cell c.sltp (c.lag.toNat + 2)) (tap c.b 4))
  else 0

/-- Term (3) (R136). -/
def narTerm (c : SrContext) : Word32 :=
  wrap ((wrap (∑ j ∈ Finset.range c.shpOrd.toNat, mulShift (cell c.slpc (j + 1)) (tap c.ar j))).toInt / 2
    + mulShift c.lfar.toInt c.tilt.toInt)

/-- Term (4) (R137). -/
def nlfTerm (c : SrContext) : Word32 :=
  wrap (4 * mulShift (cell c.sshp 1) (lowHalf c.lf) + mulShift c.lfar.toInt (highHalf c.lf))

/-- Term (5) (R138). -/
def nltpTerm (c : SrContext) : Word32 :=
  if c.voiced then
    wrap (64 * (mulShift (wrap (cell c.sshp (c.lag.toNat - 1) + cell c.sshp (c.lag.toNat + 1))).toInt
        (lowHalf c.harm)
      + mulShift (cell c.sshp c.lag.toNat) (highHalf c.harm)))
  else 0

/-- `t` of R139. -/
def predictionOf (c : SrContext) : Int :=
  (wrap ((ltpTerm c).toInt - (nltpTerm c).toInt)).toInt / 16 + (lpcTerm c).toInt - (narTerm c).toInt
    - (nlfTerm c).toInt

/-- `r` of R139. -/
def residualOf (p : Params) (c : SrContext) (x : Word32) : Word32 :=
  let d := x.toInt - predictionOf c
  let v := (wrap ((if dithers p c.seed then -d else d) - c.offset.toInt)).toInt
  wrap (max (-(p.rClamp : Int)) (min (p.rClamp : Int) v))

/-- `lpc_exc` of R142. -/
def excOf (c : SrContext) (q : Word32) : Word32 :=
  let e := q.toInt * 2 ^ 10 + c.offset.toInt
  wrap ((if c.lDither = 0 then e else -e) + (c.lLtp.toInt + 8) / 16)

/-- `xq` of R142. -/
def sampleOf (c : SrContext) (q : Word32) : Word32 := wrap ((excOf c q).toInt + c.lLpc.toInt)

/-- `slf` of R143. -/
def shapedOf (c : SrContext) (q : Word32) : Word32 := wrap ((sampleOf c q).toInt - c.lNar.toInt)

/-- An order that SR_PREDICT refuses (R131 checks 3 and 4). -/
def badOrder (lo hi ord : Nat) : Prop := ord % 2 = 1 ∨ ord < lo ∨ hi < ord

/-- A lag that SR_PREDICT refuses (R131 check 5). -/
def badLag (p : Params) (c : SrContext) : Prop :=
  c.voiced = true ∧ (c.lag.toNat < 3 ∨ p.ringDepth < c.lag.toNat + 2)

/-- What SR_PREDICT accepts (R131 checks 3 to 5). -/
def accepted (p : Params) (c : SrContext) : Prop :=
  ¬ badOrder p.lpcOrdMin p.lpcOrdMax c.lpcOrd.toNat ∧ ¬ badOrder p.shpOrdMin p.shpOrdMax c.shpOrd.toNat ∧
  ¬ badLag p c

/-- A table of 00_scope.md R10: non-decreasing, from 0 to 65535. -/
def wellFormedTable (p : Params) (base nsym : Nat) : Prop :=
  base + nsym < p.cdfEntries ∧ (∀ j, j < nsym → (p.cdf (base + j)).toNat ≤ (p.cdf (base + j + 1)).toNat) ∧
  p.cdf base = 0 ∧ p.cdf (base + nsym) = 65535

/-- A symbol of a table, with the hint its decoding will carry. -/
structure Coded where
  /-- The table's first entry. -/
  base : Word16
  /-- The number of symbols of the table. -/
  nsym : Word16
  /-- The symbol. -/
  sym : Word16
  /-- The hint. -/
  hint : Word16
deriving DecidableEq, Repr

/-- The table is well formed and the symbol is in it, with a width (R121). -/
def Coded.good (p : Params) (k : Coded) : Prop :=
  wellFormedTable p k.base.toNat k.nsym.toNat ∧ k.sym.toNat < k.nsym.toNat ∧
  (p.cdf (k.base.toNat + k.sym.toNat)).toNat < (p.cdf (k.base.toNat + k.sym.toNat + 1)).toNat

/-- The commands that start an encode session and encode the symbols. -/
def encoding (len : Word16) (ks : List Coded) : List Instr :=
  .rcEncInit len :: ks.map fun k => .rcEncode k.base k.nsym k.sym

/-- The commands that start a decode session and decode as many symbols. -/
def decoding (len : Word16) (ks : List Coded) : List Instr :=
  .rcDecInit len :: ks.map fun k => .rcDecode k.base k.nsym k.hint

/-- Two states alike but for `L_R` of one context and the last response. -/
def alike (ctx : Nat) (s t : State) : Prop :=
  ∃ c v r, s.sr[ctx]? = some c ∧ t = { s with sr := s.sr.set ctx { c with lR := v }, resp := r }

/-- What an encoder and a decoder of one stream do at one point of it: the same command, or a prediction
of different inputs. -/
def replayPair (ctx : BitVec 4) (pair : Instr × Instr) : Prop :=
  (∃ x x', pair = (.srPredict ctx x, .srPredict ctx x')) ∨
  (∃ q, pair = (.srCommit ctx q, .srCommit ctx q)) ∨
  (∃ reg v, pair = (.srWr ctx reg v, .srWr ctx reg v)) ∨
  (∃ ring k v, pair = (.srPoke ctx ring k v, .srPoke ctx ring k v))

/-- `n` samples of silence. -/
def silence (ctx : BitVec 4) : Nat → List Instr
  | 0 => []
  | n + 1 => .srPredict ctx 0 :: .srCommit ctx 0 :: silence ctx n

/-- The seed after `n` silent samples. -/
def seedAfterSilence (p : Params) (seed : Word32) : Nat → Word32
  | 0 => seed
  | n + 1 => seedAfterSilence p (seedAfter p seed) n

end Sys2Proof.Claims

section Statements

open Sys2Proof Sys2Proof.Machine Sys2Proof.Claims

/-! ## Encoding -/

/-- Derived from 30_encoding.md section 1 (fields and sub-fields): decoding an encoded command gives the
command back, with every operand at every value its field admits. -/
def Obligations.DecodeEncodeRoundTrip : Prop :=
  ∀ i : Instr, decode (encode i) = .ok i

/-- Derived from 30_encoding.md section 4 (one encoding for each command): a word that decodes is the one
word of its command. -/
def Obligations.EncodeDecodeRoundTrip : Prop :=
  ∀ (w : Word64) (i : Instr), decode w = .ok i → encode i = w

/-- R82, R88: on a block that is not halted, a word raises UF_OPCODE exactly if its opcode is not one of the
20; UF_FIELD exactly if it is and an unused bit of its row is set; UF_CTX exactly if it is otherwise legal and
names a context that does not exist; the hint of RC_DECODE is exempt (its row's unused bits leave it out);
the all-zeros word is NOP and the all-ones word is illegal. -/
def Obligations.IllegalEncodingsFault : Prop :=
  ∀ s : State, s.halt = false →
    (∀ w, (∀ row ∈ unusedBits, opcOf w ≠ row.1) → presentWord w s = .next (faulted s w 1)) ∧
    (∀ w, ∀ row ∈ unusedBits, opcOf w = row.1 → w &&& row.2 ≠ 0 →
      presentWord w s = .next (faulted s w 2)) ∧
    (∀ w, legalWord w → usesCtx w →
      (s.params.nCtx ≤ ctxOf w ∨ (opcOf w = 0x21 ∧ s.params.nCtx ≤ aOf w)) →
      presentWord w s = .next (faulted s w 3)) ∧
    (∀ w t, legalWord w →
      ¬ (usesCtx w ∧ (s.params.nCtx ≤ ctxOf w ∨ (opcOf w = 0x21 ∧ s.params.nCtx ≤ aOf w))) →
      presentWord w s = .next t →
      t.resp ≠ some (faultWord 1) ∧ t.resp ≠ some (faultWord 2) ∧ t.resp ≠ some (faultWord 3)) ∧
    decode 0 = .ok .nop ∧ presentWord 0xFFFFFFFFFFFFFFFF s = .next (faulted s 0xFFFFFFFFFFFFFFFF 1)

/-- A step runs the decoded command: when a command word is next at the port and decodes to `i`, the step is
`exec i` of the state with that word taken; a word that decodes to nothing is presented in the same way; and
`withFetchWord` makes a word the next one. Derived from 10_state.md section 2 and 60_exceptions.md section 4
(the port is the model's own, log entry 3). -/
def Obligations.StepRunsDecodedCommand : Prop :=
  (∀ (s : State) (w : Word64) (rest : List HostEvent) (i : Instr),
    s.port = .command w :: rest → decode w = .ok i → step s = exec i { s with port := rest }) ∧
  (∀ (s : State) (w : Word64) (rest : List HostEvent),
    s.port = .command w :: rest → step s = presentWord w { s with port := rest }) ∧
  (∀ (s : State) (nbits w : Nat) (i : Instr),
    decodeTableWord nbits w = some i → step (s.withFetchWord nbits w) = exec i s)

/-- An idle block keeps all its state, and a step takes a reset from the port. Derived from 60_exceptions.md
section 6 and 70_reset_and_hazards.md section 1; that what the host presents is a list, and that the response
is cleared by a reset, is the model's choice (log entries 3, 4 and 6). -/
def Obligations.StepIdlesOrResets : Prop :=
  (∀ s : State, s.port = [] → step s = .next s) ∧
  (∀ (s : State) (rest : List HostEvent), s.port = .reset :: rest →
    ∃ t, step s = .next t ∧ t.port = rest ∧ t.resp = none ∧ t.params = s.params)

/-- R57: what reset leaves, from any state: the values of the table, no cell of `BUF` with a written value (what
it reads as is free: log entry 5), the CDF memory as it was, every context all zeros and the one SR_CLEAR produces, and a context that SR_PREDICT
refuses with UF_ORDER until it is configured (where a least order is above 0, as in the default column of
R8). -/
def Obligations.ResetLeavesTheTable : Prop :=
  ∀ (s : State) (rest : List HostEvent), s.port = .reset :: rest →
    ∃ t, step s = .next t ∧ modeNumber t.mode = 0 ∧ t.err = false ∧ t.errCode = 0 ∧ t.halt = false ∧
      t.faultCode = 0 ∧ t.faultInfo = 0 ∧ t.base = 0 ∧ t.range = 0 ∧ t.ix = 0 ∧ t.len = 0 ∧
      (∀ a, Memory.lookup a t.buf = none) ∧ t.params.cdfImage = s.params.cdfImage ∧
      t.sr.length = t.params.nCtx ∧
      (∀ c ∈ t.sr, (∀ e ∈ regs t.params c, e.2 = 0) ∧
        c.slpc = List.replicate t.params.slpcDepth 0 ∧ c.sltp = List.replicate t.params.ringDepth 0 ∧
        c.sshp = List.replicate t.params.ringDepth 0 ∧
        ∀ (u v : State) (ctx : BitVec 4), u.params = t.params → u.halt = false → u.sr.length = t.params.nCtx →
          ctx.toNat < t.params.nCtx → exec (.srClear ctx) u = .next v → v.sr[ctx.toNat]? = some c) ∧
      (∀ (ctx : BitVec 4) (x : Word32), 0 < t.params.lpcOrdMin ∨ 0 < t.params.shpOrdMin →
        ctx.toNat < t.params.nCtx →
        exec (.srPredict ctx x) t = .next (faulted t (encode (.srPredict ctx x)) 8))

/-- A few words written out bit by bit from the encoding of 30_encoding.md (sections 2 and 6), one for each
group and more, decode to the commands they stand for. -/
def Obligations.DecodingExamples : Prop :=
  decode 0x0000000000000000 = .ok .nop ∧
  decode 0x0100000200000000 = .ok (.csrRd 2) ∧
  decode 0x1000040000000000 = .ok (.rcEncInit 1024) ∧
  decode 0x1200000300040002 = .ok (.rcEncode 3 4 2) ∧
  decode 0x1300000300040000 = .ok (.rcDecode 3 4 0) ∧
  decode 0x1900000200000029 = .ok (.bufWr 2 0x29) ∧
  decode 0x2120000000000000 = .ok (.srCopy 2 0) ∧
  decode 0x231000500000000A = .ok (.srWr 1 0x50 10) ∧
  decode 0x2400400500000000 = .ok (.srPeek 0 1 5) ∧
  decode 0x253083C0FFFFFFFF = .ok (.srPoke 3 2 960 0xFFFFFFFF) ∧
  decode 0x28000000FFFFEC78 = .ok (.srPredict 0 0xFFFFEC78) ∧
  decode 0x29000000FFFFFFC0 = .ok (.srCommit 0 0xFFFFFFC0)

/-- Derived from 30_encoding.md section 6 (serialisation): a word written as bytes has its most significant
byte first, and reading the bytes back gives the word. -/
def Obligations.SerialisedMostSignificantFirst : Prop :=
  ∀ (w : Word64) (rest : List Byte),
    wordBytes w = (List.range 8).map (fun k => BitVec.ofNat 8 (w.toNat / 256 ^ (7 - k))) ∧
    takeWord (wordBytes w ++ rest) = some (w, rest)

/-! ## Primitives -/

/-- Derived from 00_scope.md section 5 (the clamp in the symmetric form its one use has): the primitives on
integers. A sum, a difference and a left shift wrap, both right shifts floor, the two
fixed-point products floor and always fit, the rounding shift rounds to nearest with ties upward, the leading
zeros are counted, the clamp is inclusive on both sides, and a mask of ones negates. -/
def Obligations.PrimitivesFollowTheTable : Prop :=
  ∀ (a b : Word32) (n : Nat),
    a + b = wrap (a.toInt + b.toInt) ∧ a - b = wrap (a.toInt - b.toInt) ∧
    (n ≤ 31 → a <<< n = wrap (a.toInt * 2 ^ n) ∧ (a.sshiftRight n).toInt = a.toInt / 2 ^ n ∧
      (a >>> n).toNat = a.toNat / 2 ^ n) ∧
    (smulwb a b).toInt = mulShift a.toInt (lowHalf b) ∧ (smulwt a b).toInt = mulShift a.toInt (highHalf b) ∧
    (2 ≤ n → n ≤ 31 → (rshiftRound a n).toInt = (a.toInt + 2 ^ (n - 1)) / 2 ^ n) ∧
    (a = 0 → clz32 a = 32) ∧
    (a ≠ 0 → clz32 a ≤ 31 ∧ 2 ^ (31 - clz32 a) ≤ a.toNat ∧ a.toNat < 2 ^ (32 - clz32 a)) ∧
    (0 < n → n < 2 ^ 31 → (clampSym n a).toInt = max (-(n : Int)) (min (n : Int) a.toInt)) ∧
    negateIf 0 a = a ∧ negateIf 0xFFFFFFFF a = wrap (-a.toInt)

/-! ## Every command -/

/-- R86: every command word, in every good state, gets exactly one response and a next state; `CODE` is 0 when
`ST` is OK, a code of R191 when it is RC_ERROR and one of R195 when it is FAULT, and the results are then 0;
only RC_GET_LENGTH and RC_ENC_WRAPUP give a non-zero `R1`, and only the commands that return something a
non-zero `R0`. -/
def Obligations.EveryCommandGetsOneResponse : Prop :=
  ∀ (s : State) (w : Word64), s.Inv → ∃ t r, presentWord w s = .next t ∧ t.resp = some r ∧
    ((classOf r = 0 ∧ codeOf r = 0) ∨
     (classOf r = 1 ∧ 1 ≤ codeOf r ∧ codeOf r ≤ 5 ∧ r1Of r = 0 ∧ r0Of r = 0) ∨
     (classOf r = 2 ∧ ((1 ≤ codeOf r ∧ codeOf r ≤ 12) ∨ codeOf r = 15) ∧ r1Of r = 0 ∧ r0Of r = 0)) ∧
    (r1Of r ≠ 0 → opcOf w = 0x14 ∨ opcOf w = 0x15) ∧
    (r0Of r ≠ 0 → opcOf w ∈ [0x01, 0x13, 0x14, 0x15, 0x18, 0x1A, 0x22, 0x24, 0x28, 0x29])

/-- R196: the usage-fault action, from any state. On a block that is not halted, a response is FAULT exactly if
the block halts, and then one code of R195 is recorded with the command word being executed and nothing else
changes; on a halted block a command changes nothing but the response, and the only faults it answers are
UF_HALTED and the UF_FIELD or UF_ADDR of a NOP or CSR_RD. -/
def Obligations.UsageFaultIsPrecise : Prop :=
  ∀ (s t : State) (w r : Word64), presentWord w s = .next t → t.resp = some r →
    (s.halt = false → (t.halt = true ↔ classOf r = 2)) ∧
    (s.halt = false → t.halt = true → ∃ code, 1 ≤ code ∧ code ≤ 12 ∧ t = faulted s w code) ∧
    (s.halt = true → t = answered s r ∧
      (classOf r = 2 → codeOf r = 15 ∨
        ((codeOf r = 2 ∨ codeOf r = 4) ∧ (opcOf w = 0x00 ∨ opcOf w = 0x01))))

/-- R197: while halted, NOP and CSR_RD execute normally (they cannot change state) and every other command
word, assigned or not, well formed or not, is answered UF_HALTED with no state change; a step leaves the
halted state only by a reset. -/
def Obligations.HaltedBlockAnswersOnly : Prop :=
  ∀ s : State, s.halt = true →
    (∀ w, opcOf w ≠ 0x00 → opcOf w ≠ 0x01 → presentWord w s = .next (answered s (faultWord 15))) ∧
    presentWord 0 s = .next (answered s (okWord 0 0)) ∧
    (s.params.valid = true → ∀ csr : Word16, ∀ e ∈ csrs s, e.1 = csr.toNat →
      presentWord (BitVec.ofNat 64 (2 ^ 56 + csr.toNat * 2 ^ 32)) s = .next (answered s (okWord 0 e.2))) ∧
    (∀ t, step s = .next t → t.halt = false → ∃ rest, s.port = .reset :: rest)

/-- R192: the RC-error action. When a command sets `ERR`, it sets `ERR` and `ERRCODE`, answers with the code
and zero results, and changes nothing else; the two inits with a length beyond the buffer are the exception,
and first write the registers of their rules. -/
def Obligations.RcErrorIsPrecise : Prop :=
  ∀ (i : Instr) (s t : State), s.err = false → exec i s = .next t → t.err = true →
    (∃ code ∈ [1, 2, 3, 5], t = rcFailed s code) ∨
    (∃ len : Word16, s.params.bufBytes < len.toNat ∧ i = .rcEncInit len ∧
      t = rcFailed { s with mode := .enc, base := 0, range := 0xFFFF, ix := 0, len := 0 } 4) ∨
    (∃ len : Word16, s.params.bufBytes < len.toNat ∧ i = .rcDecInit len ∧
      t = rcFailed { s with mode := .dec, base := 0, range := 0xFFFF, ix := 0, len := 0 } 4)

/-- R193: while `ERR` is set, RC_ENCODE and RC_ENC_WRAPUP in `ENC` and RC_DECODE and RC_CHECK in `DEC` answer
the original code and change nothing, whatever their operands; RC_GET_LENGTH answers OK; an init clears the
error, or sets it again with code 4; the memory accesses, NOP, CSR_RD and every SR command do what they do
without the error (CSR_RD of another register than STATUS). The gate follows the mode check: out of mode they
fault. -/
def Obligations.StickyErrorGates : Prop :=
  ∀ s : State, s.halt = false → s.err = true →
    (∀ base nsym sym, exec (.rcEncode base nsym sym) s =
      .next (if s.mode = .enc then answered s (errWord s.errCode.toNat)
             else faulted s (encode (.rcEncode base nsym sym)) 5)) ∧
    (exec .rcEncWrapup s =
      .next (if s.mode = .enc then answered s (errWord s.errCode.toNat) else faulted s (encode .rcEncWrapup) 5)) ∧
    (∀ base nsym hint, exec (.rcDecode base nsym hint) s =
      .next (if s.mode = .dec then answered s (errWord s.errCode.toNat)
             else faulted s (encode (.rcDecode base nsym hint)) 5)) ∧
    (exec .rcCheck s =
      .next (if s.mode = .dec then answered s (errWord s.errCode.toNat) else faulted s (encode .rcCheck) 5)) ∧
    (s.mode = .enc ∨ s.mode = .dec → ∃ r, classOf r = 0 ∧ exec .rcGetLength s = .next (answered s r)) ∧
    (∀ (len : Word16) (t : State), exec (.rcEncInit len) s = .next t ∨ exec (.rcDecInit len) s = .next t →
      if len.toNat ≤ s.params.bufBytes then t.err = false ∧ t.errCode = 0 else t.err = true ∧ t.errCode = 4) ∧
    (∀ (i : Instr) (t : State),
      (isSr i = true ∨ i = .nop ∨ (∃ csr : Word16, csr ≠ 2 ∧ i = .csrRd csr) ∨ (∃ a, i = .bufRd a) ∨
        (∃ a b, i = .bufWr a b) ∨ ∃ k, i = .cdfRd k) →
      exec i s = .next t →
      exec i { s with err := false, errCode := 0 } = .next { t with err := false, errCode := 0 }) ∧
    (∀ (i : Instr) (t : State), exec i s = .next t → t.err = true →
      t.errCode = s.errCode ∨ ((∃ len, i = .rcEncInit len) ∨ ∃ len, i = .rcDecInit len) ∧ t.errCode = 4)

/-- R30: a command of the RC unit (or BUF_WR) in a mode where it is not legal raises UF_MODE, no command raises
it in a mode where it is legal, and the mode changes only by an init or by an RC_ENC_WRAPUP that succeeds in
`ENC`; the numbers of the modes are what `STATUS` shows. -/
def Obligations.ModesAreRespected : Prop :=
  ∀ (i : Instr) (s t : State), s.halt = false → exec i s = .next t →
    (s.mode ∉ legalModes i → t = faulted s (encode i) 5) ∧
    (s.mode ∈ legalModes i → t.resp ≠ some (faultWord 5)) ∧
    (t.mode ≠ s.mode →
      ((∃ len, i = .rcEncInit len) ∧ t.mode = .enc) ∨ ((∃ len, i = .rcDecInit len) ∧ t.mode = .dec) ∨
      (i = .rcEncWrapup ∧ s.mode = .enc ∧ t.mode = .fin ∧ ∃ r, t.resp = some r ∧ classOf r = 0)) ∧
    (∀ len, i = .rcEncInit len → t.mode = .enc) ∧ (∀ len, i = .rcDecInit len → t.mode = .dec) ∧
    (i = .rcEncWrapup → (∃ r, t.resp = some r ∧ classOf r = 0) → t.mode = .fin) ∧
    s.status.toNat / 4 % 4 = modeNumber s.mode

/-- Derived from 00_scope.md section 1 (the units share nothing but the port and the status registers): a
command of the RC unit neither reads nor writes SR state, and a command of the SR unit neither reads nor writes
RC state. -/
def Obligations.UnitsShareNothing : Prop :=
  ∀ (i : Instr) (s t : State), exec i s = .next t →
    (isRc i = true → t.sr = s.sr ∧
      ∀ sr', exec i { s with sr := sr' } = .next { t with sr := sr' }) ∧
    (isSr i = true → t.base = s.base ∧ t.range = s.range ∧ t.ix = s.ix ∧ t.len = s.len ∧ t.err = s.err ∧
        t.errCode = s.errCode ∧ t.mode = s.mode ∧ t.buf = s.buf ∧
      ∀ b r i' l e ec m bf,
        exec i { s with base := b, range := r, ix := i', len := l, err := e, errCode := ec, mode := m, buf := bf } =
          .next { t with base := b, range := r, ix := i', len := l, err := e, errCode := ec, mode := m, buf := bf })

/-- Derived from 20_memory.md section 3 (no read has a side effect): BUF_RD, CDF_RD, SR_RD, SR_PEEK, CSR_RD and
RC_GET_LENGTH change nothing but the response, unless they raise a usage fault. -/
def Obligations.ReadsHaveNoSideEffects : Prop :=
  ∀ (i : Instr) (s t : State),
    ((∃ a, i = .bufRd a) ∨ (∃ k, i = .cdfRd k) ∨ (∃ c r, i = .srRd c r) ∨ (∃ c r k, i = .srPeek c r k) ∨
      (∃ k, i = .csrRd k) ∨ i = .rcGetLength) →
    exec i s = .next t →
    (∃ r, t = answered s r) ∨ (s.halt = false ∧ ∃ code, 1 ≤ code ∧ code ≤ 12 ∧ t = faulted s (encode i) code)

/-! ## Invariants -/

/-- The invariant holds after reset, for every valid instance. -/
def Obligations.InvHoldsAtReset : Prop :=
  (∀ (p : Params) (epoch : Nat) (port : List HostEvent), p.valid = true →
    (State.afterReset p epoch port).Inv ∧ (State.afterReset p epoch port).EncoderInterval) ∧
  State.reset.Inv ∧ State.reset.EncoderInterval

/-- Every step keeps the invariant: `IX ≤ LEN ≤ BUF_BYTES`, `RANGE ≥ 256` in a session, `ERRCODE` and
`FAULTCODE` in step with their flags, `BUF` in canonical form and within bounds, contexts of the right shape
and number, `PVALID` only over an accepted configuration. -/
def Obligations.StepKeepsInv : Prop :=
  ∀ s t : State, s.Inv → step s = .next t → t.Inv

/-- Every step keeps the bound on the encoder's coding interval. Derived from 40_rc_commands.md section 3
(what it derives of the interval under carry propagation). -/
def Obligations.StepKeepsEncoderInterval : Prop :=
  ∀ s t : State, s.Inv → s.EncoderInterval → step s = .next t → t.EncoderInterval

/-- Hence UF_CARRY is never raised: from a good state, RC_ENCODE and RC_ENC_WRAPUP never answer it, nor does
any command. Derived from 40_rc_commands.md sections 3 and 6. -/
def Obligations.CarryNeverPassesTheStart : Prop :=
  ∀ (i : Instr) (s t : State), s.Inv → s.EncoderInterval → exec i s = .next t →
    t.resp ≠ some (faultWord 11)

/-! ## System and buffer commands -/

/-- R170: NOP does nothing but answer, halted or not; the only legal NOP is the all-zeros word, and the others
with its opcode raise UF_FIELD. -/
def Obligations.NopDoesNothing : Prop :=
  ∀ s : State, exec .nop s = .next (answered s (okWord 0 0)) ∧
    (∀ w : Word64, opcOf w = 0 → (decode w = .ok .nop ↔ w = 0)) ∧
    (∀ w : Word64, opcOf w = 0 → w ≠ 0 → s.halt = false → presentWord w s = .next (faulted s w 2))

/-- R40, R41, R171: CSR_RD answers the contents column of the table for every index in it, halted or not, and
raises UF_ADDR for every other, which a halted block only answers. -/
def Obligations.CsrReadsTheTable : Prop :=
  ∀ (s : State) (csr : Word16), s.params.valid = true →
    (∀ e ∈ csrs s, e.1 = csr.toNat → exec (.csrRd csr) s = .next (answered s (okWord 0 e.2))) ∧
    ((∀ e ∈ csrs s, e.1 ≠ csr.toNat) →
      exec (.csrRd csr) s = .next (if s.halt then answered s (faultWord 4)
                                   else faulted s (encode (.csrRd csr)) 4))

/-- R172: BUF_RD answers the byte, in every mode, with `ERR` set or clear, whatever `LEN` is; beyond
`BUF_BYTES` it raises UF_ADDR. -/
def Obligations.BufReadAnswersTheByte : Prop :=
  ∀ (s : State) (addr : Word16), s.halt = false →
    (addr.toNat < s.params.bufBytes →
      exec (.bufRd addr) s = .next (answered s (okWord 0 (s.bufByte addr.toNat).toNat))) ∧
    (s.params.bufBytes ≤ addr.toNat → exec (.bufRd addr) s = .next (faulted s (encode (.bufRd addr)) 4))

/-- R173: BUF_WR stores its byte and changes nothing else, every other byte of `BUF` included; it raises
UF_MODE in `ENC`, before the bounds check, and UF_ADDR beyond `BUF_BYTES` elsewhere. -/
def Obligations.BufWriteStoresTheByte : Prop :=
  ∀ (s : State) (addr : Word16) (byte : Byte), s.halt = false →
    (s.mode = .enc → exec (.bufWr addr byte) s = .next (faulted s (encode (.bufWr addr byte)) 5)) ∧
    (s.mode ≠ .enc → s.params.bufBytes ≤ addr.toNat →
      exec (.bufWr addr byte) s = .next (faulted s (encode (.bufWr addr byte)) 4)) ∧
    (s.mode ≠ .enc → addr.toNat < s.params.bufBytes →
      ∃ t, exec (.bufWr addr byte) s = .next t ∧ t = { s with buf := t.buf, resp := some (okWord 0 0) } ∧
        t.bufByte addr.toNat = byte ∧ ∀ a, a ≠ addr.toNat → t.bufByte a = s.bufByte a)

/-- R174: CDF_RD answers the entry, in every mode; beyond `CDF_ENTRIES` it raises UF_ADDR. -/
def Obligations.CdfReadAnswersTheEntry : Prop :=
  ∀ (s : State) (index : Word16), s.halt = false →
    (∀ v, s.params.cdfImage[index.toNat]? = some v →
      exec (.cdfRd index) s = .next (answered s (okWord 0 v.toNat))) ∧
    (s.params.cdfImage[index.toNat]? = none →
      exec (.cdfRd index) s = .next (faulted s (encode (.cdfRd index)) 4))

/-! ## Range coder -/

/-- R101: RC_ENC_INIT begins an encode session; a length beyond `BUF_BYTES` sets the sticky error with code 4
and `LEN = 0`. `BUF` is not written. -/
def Obligations.EncInitBeginsSession : Prop :=
  ∀ (s : State) (len : Word16), s.halt = false →
    (len.toNat ≤ s.params.bufBytes → exec (.rcEncInit len) s = .next
      { s with mode := .enc, base := 0, range := 0xFFFF, ix := 0, len := len, err := false, errCode := 0,
               resp := some (okWord 0 0) }) ∧
    (s.params.bufBytes < len.toNat → exec (.rcEncInit len) s = .next
      { s with mode := .enc, base := 0, range := 0xFFFF, ix := 0, len := 0, err := true, errCode := 4,
               resp := some (errWord 4) })

/-- R102, R103: RC_DEC_INIT begins a decode session and seeds `BASE` with the first four payload bytes, big
endian, a byte at or beyond the new `LEN` being 0; a length beyond `BUF_BYTES` sets the sticky error. -/
def Obligations.DecInitSeedsBase : Prop :=
  ∀ (s : State) (len : Word16), s.halt = false →
    (len.toNat ≤ s.params.bufBytes → exec (.rcDecInit len) s = .next
      { s with mode := .dec, range := 0xFFFF, ix := 0, len := len, err := false, errCode := 0,
               base := BitVec.ofNat 32 (payload s len.toNat 0 * 2 ^ 24 + payload s len.toNat 1 * 2 ^ 16
                 + payload s len.toNat 2 * 2 ^ 8 + payload s len.toNat 3),
               resp := some (okWord 0 0) }) ∧
    (s.params.bufBytes < len.toNat → exec (.rcDecInit len) s = .next
      { s with mode := .dec, base := 0, range := 0xFFFF, ix := 0, len := 0, err := true, errCode := 4,
               resp := some (errWord 4) })

/-- R104: the checks of RC_ENCODE, in their order; past them it neither faults with their codes nor answers the
old error. -/
def Obligations.EncodeChecksInOrder : Prop :=
  ∀ (s : State) (base nsym sym : Word16), s.halt = false → s.len.toNat ≤ s.params.bufBytes →
    let i := Instr.rcEncode base nsym sym
    if s.mode ≠ .enc then exec i s = .next (faulted s (encode i) 5)
    else if s.err = true then exec i s = .next (answered s (errWord s.errCode.toNat))
    else if nsym.toNat = 0 ∨ nsym.toNat ≤ sym.toNat then exec i s = .next (faulted s (encode i) 6)
    else if s.params.cdfEntries ≤ base.toNat + nsym.toNat then exec i s = .next (faulted s (encode i) 4)
    else if entry s (base.toNat + sym.toNat + 1) ≤ entry s (base.toNat + sym.toNat) then
      exec i s = .next (faulted s (encode i) 7)
    else ∃ t r, exec i s = .next t ∧ t.resp = some r ∧
      (r = okWord 0 0 ∨ r = errWord 1 ∨ r = faultWord 11)

/-- R105, R106: RC_ENCODE's main rule. With the checks passed and room for the bytes it moves, the emitted
bytes followed by `BASE`, read as one big-endian number, become `(that number + RANGE·low) · 256^n`; `RANGE`
and `IX` are as R106 says; nothing at or beyond the new `IX` and no other state changes. Without the room it
raises WRITE_BEYOND_BUFFER and changes nothing else, carry or not; a carry with nowhere to go is UF_CARRY. -/
def Obligations.EncodeFollowsTheMainRule : Prop :=
  ∀ (s : State) (base nsym sym : Word16),
    s.halt = false → s.mode = .enc → s.err = false → s.len.toNat ≤ s.params.bufBytes →
    sym.toNat < nsym.toNat → base.toNat + nsym.toNat < s.params.cdfEntries →
    entry s (base.toNat + sym.toNat) < entry s (base.toNat + sym.toNat + 1) →
    let i := Instr.rcEncode base nsym sym
    let add := s.range.toNat * entry s (base.toNat + sym.toNat)
    let prod := s.range.toNat * (entry s (base.toNat + sym.toNat + 1) - entry s (base.toNat + sym.toNat))
    let n := moved prod
    let carry := 2 ^ 32 ≤ s.base.toNat + add
    (s.len.toNat < s.ix.toNat + n → exec i s = .next (rcFailed s 1)) ∧
    (s.ix.toNat + n ≤ s.len.toNat → carry ∧ noRoomForCarry s → exec i s = .next (faulted s (encode i) 11)) ∧
    (s.ix.toNat + n ≤ s.len.toNat → ¬ (carry ∧ noRoomForCarry s) →
      ∃ t, exec i s = .next t ∧
        t.codedLow = (s.codedLow + add) * 256 ^ n ∧
        t.range.toNat = newRange prod ∧ t.ix.toNat = s.ix.toNat + n ∧
        (∀ a, s.ix.toNat + n ≤ a → t.bufByte a = s.bufByte a) ∧
        t = { s with buf := t.buf, base := t.base, range := t.range, ix := t.ix, resp := some (okWord 0 0) })

/-- R107: where the addition of an RC_ENCODE, or the rounding of an RC_ENC_WRAPUP, that succeeds carries, the
bytes from some position up to the old `IX` wrap from FF to 00, the byte before them is one more and did not
wrap, and the bytes below it stay; where it does not carry, every byte below the old `IX` stays. UF_CARRY means
that there was a carry and no byte to take it, and no byte has changed. -/
def Obligations.CarryWalksBackOverFF : Prop :=
  ∀ (i : Instr) (s t : State) (r : Word64) (carry : Prop),
    ((∃ base nsym sym, i = .rcEncode base nsym sym ∧
        (carry ↔ 2 ^ 32 ≤ s.base.toNat + s.range.toNat * entry s (base.toNat + sym.toNat))) ∨
      (∃ b, i = .rcEncWrapup ∧ lengthTerm s.range.toNat b ∧
        (carry ↔ 2 ^ b ≤ s.base.toNat / 2 ^ (32 - b) + 1))) →
    exec i s = .next t → t.resp = some r →
    (classOf r = 0 → carry → carryWalked s t) ∧
    (classOf r = 0 → ¬ carry → ∀ a, a < s.ix.toNat → t.bufByte a = s.bufByte a) ∧
    (r = faultWord 11 → carry ∧ noRoomForCarry s ∧ t = faulted s (encode i) 11)

/-- R110: the checks of RC_DECODE, in their order; past them it answers a symbol or a new RC error. -/
def Obligations.DecodeChecksInOrder : Prop :=
  ∀ (s : State) (base nsym hint : Word16), s.halt = false → s.len.toNat ≤ s.params.bufBytes →
    let i := Instr.rcDecode base nsym hint
    if s.mode ≠ .dec then exec i s = .next (faulted s (encode i) 5)
    else if s.err = true then exec i s = .next (answered s (errWord s.errCode.toNat))
    else if nsym.toNat = 0 then exec i s = .next (faulted s (encode i) 6)
    else if s.params.cdfEntries ≤ base.toNat + nsym.toNat then exec i s = .next (faulted s (encode i) 4)
    else ∃ t r, exec i s = .next t ∧ t.resp = some r ∧
      ((classOf r = 0 ∧ r0Of r < nsym.toNat) ∨ r = errWord 2 ∨ r = errWord 5)

/-- R111, R113: RC_DECODE finds the symbol of R111 and follows the main rule: `BASE` loses `RANGE·low`, moves
up by `n` bytes and takes the payload bytes from position `4 + IX`; where no symbol contains the value it
raises CDF_OUT_OF_RANGE, and where `IX` would pass `LEN` it raises TRUNCATED, and nothing else changes. -/
def Obligations.DecodeFollowsTheMainRule : Prop :=
  ∀ (s : State) (base nsym hint : Word16),
    s.halt = false → s.mode = .dec → s.err = false → s.len.toNat ≤ s.params.bufBytes →
    0 < nsym.toNat → base.toNat + nsym.toNat < s.params.cdfEntries →
    let i := Instr.rcDecode base nsym hint
    ((∀ sym, ¬ isDecoded s base.toNat nsym.toNat sym) → exec i s = .next (rcFailed s 2)) ∧
    (∀ sym, isDecoded s base.toNat nsym.toNat sym →
      let low := entry s (base.toNat + sym)
      let prod := s.range.toNat * (entry s (base.toNat + sym + 1) - low)
      let n := moved prod
      let rest := s.base.toNat - s.range.toNat * low
      (s.len.toNat < s.ix.toNat + n → exec i s = .next (rcFailed s 5)) ∧
      (s.ix.toNat + n ≤ s.len.toNat → exec i s = .next
        { s with
          base := BitVec.ofNat 32
            (if n = 0 then rest
             else if n = 1 then rest * 2 ^ 8 + payload s s.len.toNat (4 + s.ix.toNat)
             else rest * 2 ^ 16 + payload s s.len.toNat (4 + s.ix.toNat) * 2 ^ 8
               + payload s s.len.toNat (5 + s.ix.toNat)),
          range := BitVec.ofNat 16 (newRange prod),
          ix := BitVec.ofNat 16 (s.ix.toNat + n),
          resp := some (okWord 0 sym) }))

/-- R112: the hint of RC_DECODE is read by nothing: two words that differ in it decode, and do the same in every
state (but for the word that a fault records). -/
def Obligations.DecodeIgnoresTheHint : Prop :=
  ∀ (s t : State) (base nsym hint hint' : Word16),
    decode (encode (.rcDecode base nsym hint)) = .ok (.rcDecode base nsym hint) ∧
    (exec (.rcDecode base nsym hint) s = .next t →
      ∃ info, exec (.rcDecode base nsym hint') s = .next { t with faultInfo := info } ∧
        (t.halt = false → info = t.faultInfo))

/-- R115, R116: RC_GET_LENGTH answers `bits = 8·IX + b` and the bytes that hold them, `b` from the table of
R115, in `ENC` and `DEC`, with `ERR` set or clear, and changes nothing; elsewhere it raises UF_MODE. -/
def Obligations.GetLengthAnswersBitsAndBytes : Prop :=
  ∀ s : State, s.halt = false →
    (s.mode ≠ .enc → s.mode ≠ .dec → exec .rcGetLength s = .next (faulted s (encode .rcGetLength) 5)) ∧
    (s.mode = .enc ∨ s.mode = .dec → 256 ≤ s.range.toNat →
      ∃ b, lengthTerm s.range.toNat b ∧
        exec .rcGetLength s = .next (answered s (okWord (s.ix.toNat + bytesFor b) (8 * s.ix.toNat + b))))

/-- R118: RC_ENC_WRAPUP. With room for its one or two bytes, the payload becomes the emitted bytes and the top
`b` bits of `BASE` rounded up, followed by ones to the end of the last byte; `IX` counts the bytes, the mode is
`FIN`, and nothing else changes. The checks and failures come in their order: mode, sticky error, room, carry. -/
def Obligations.WrapUpRoundsUpAndPads : Prop :=
  ∀ (s : State) (b : Nat), s.halt = false → s.len.toNat ≤ s.params.bufBytes → lengthTerm s.range.toNat b →
    let i := Instr.rcEncWrapup
    let nw := bytesFor b
    let blocked := 2 ^ b ≤ s.base.toNat / 2 ^ (32 - b) + 1 ∧ noRoomForCarry s
    (s.mode ≠ .enc → exec i s = .next (faulted s (encode i) 5)) ∧
    (s.mode = .enc → s.err = true → exec i s = .next (answered s (errWord s.errCode.toNat))) ∧
    (s.mode = .enc → s.err = false → s.len.toNat < s.ix.toNat + nw → exec i s = .next (rcFailed s 1)) ∧
    (s.mode = .enc → s.err = false → s.ix.toNat + nw ≤ s.len.toNat → blocked →
      exec i s = .next (faulted s (encode i) 11)) ∧
    (s.mode = .enc → s.err = false → s.ix.toNat + nw ≤ s.len.toNat → ¬ blocked →
      ∃ t, exec i s = .next t ∧
        bytesBig t.bufByte (s.ix.toNat + nw) =
          (s.codedLow / 2 ^ (32 - b) + 1) * 2 ^ (8 * nw - b) + (2 ^ (8 * nw - b) - 1) ∧
        t.ix.toNat = s.ix.toNat + nw ∧
        (∀ a, s.ix.toNat + nw ≤ a → t.bufByte a = s.bufByte a) ∧
        t = { s with buf := t.buf, ix := t.ix, mode := .fin,
                     resp := some (okWord (s.ix.toNat + nw) (8 * s.ix.toNat + b)) })

/-- R120: RC_CHECK answers OK exactly if the payload holds `bytes` bytes and every padding bit of the last of
them is 1, raises CHECK_FAILED otherwise, and changes nothing else; the mode and the sticky error come first. -/
def Obligations.CheckVerifiesThePadding : Prop :=
  ∀ (s : State) (b : Nat), s.halt = false → s.len.toNat ≤ s.params.bufBytes → lengthTerm s.range.toNat b →
    let i := Instr.rcCheck
    let nb := s.ix.toNat + bytesFor b
    let ones := 2 ^ (8 * bytesFor b - b)
    let padded := (s.bufByte (nb - 1)).toNat % ones = ones - 1
    (s.mode ≠ .dec → exec i s = .next (faulted s (encode i) 5)) ∧
    (s.mode = .dec → s.err = true → exec i s = .next (answered s (errWord s.errCode.toNat))) ∧
    (s.mode = .dec → s.err = false → s.len.toNat < nb → exec i s = .next (rcFailed s 3)) ∧
    (s.mode = .dec → s.err = false → nb ≤ s.len.toNat → ¬ padded → exec i s = .next (rcFailed s 3)) ∧
    (s.mode = .dec → s.err = false → nb ≤ s.len.toNat → padded →
      exec i s = .next (answered s (okWord 0 0)))

/-- Derived from 40_rc_commands.md sections 4 and 5 ("pulling bytes on the same schedule"): an encoder and a
decoder of one instance with equal `RANGE` and `IX` that both succeed on one symbol have equal `RANGE` and `IX`
again. -/
def Obligations.DecoderKeepsTheEncodersSchedule : Prop :=
  ∀ (e d e' d' : State) (base nsym sym hint : Word16),
    e.params = d.params → e.range = d.range → e.ix = d.ix →
    exec (.rcEncode base nsym sym) e = .next e' → e'.resp = some (okWord 0 0) →
    exec (.rcDecode base nsym hint) d = .next d' → d'.resp = some (okWord 0 sym.toNat) →
    e'.range = d'.range ∧ e'.ix = d'.ix

/-- Derived from 40_rc_commands.md section 5 (bit-length determinism): from a good state, coding a symbol never
lowers the bits that RC_GET_LENGTH answers. -/
def Obligations.BitsNeverDecrease : Prop :=
  ∀ (i : Instr) (s a t b : State) (r r' : Word64), s.Inv → s.mode.inSession = true →
    ((∃ base nsym sym, i = .rcEncode base nsym sym) ∨ ∃ base nsym hint, i = .rcDecode base nsym hint) →
    exec .rcGetLength s = .next a → a.resp = some r → exec i s = .next t → t.halt = false →
    exec .rcGetLength t = .next b → b.resp = some r' → r0Of r ≤ r0Of r'

/-- Derived from 70_reset_and_hazards.md section 2 (the payload is read at the moment of each pull): what `BUF`
holds below position `4 + IX` has no part in RC_DECODE, nor what it holds at or beyond `LEN`. -/
def Obligations.PayloadIsReadLazily : Prop :=
  ∀ (s t : State) (buf : Memory) (base nsym hint : Word16),
    (∀ a, 4 + s.ix.toNat ≤ a → a < s.len.toNat → Memory.read s.epoch buf a = s.bufByte a) →
    exec (.rcDecode base nsym hint) s = .next t →
    exec (.rcDecode base nsym hint) { s with buf := buf } = .next { t with buf := buf }

/-- Derived from 40_rc_commands.md section 7 (round trip): if an encode session over symbols of well-formed
tables answers OK throughout and its wrap-up answers OK with `bits` (32 bits) and `bytes`, then a decoder of
the same instance whose first `bytes` payload bytes are those, given any length from `bytes` up and whatever
lies beyond, answers OK throughout with the symbols encoded, the check included, whatever the hints; and after
each symbol its `RANGE` and `IX` are the encoder's. -/
def Obligations.DecodingInvertsEncoding : Prop :=
  ∀ (s d : State) (len len' : Word16) (ks : List Coded) (bits : Nat),
    s.halt = false → d.halt = false → d.params = s.params →
    len.toNat ≤ s.params.bufBytes → len'.toNat ≤ s.params.bufBytes →
    (∀ k ∈ ks, k.good s.params) → bits < 2 ^ 32 →
    let t := runAll (encoding len ks ++ [.rcEncWrapup]) s
    answers (encoding len ks ++ [.rcEncWrapup]) s =
      (encoding len ks).map (fun _ => some (okWord 0 0)) ++ [some (okWord t.ix.toNat bits)] →
    t.ix.toNat ≤ len'.toNat → (∀ a, a < t.ix.toNat → d.bufByte a = t.bufByte a) →
    answers (decoding len' ks ++ [.rcCheck]) d =
      some (okWord 0 0) :: ks.map (fun k => some (okWord 0 k.sym.toNat)) ++ [some (okWord 0 0)] ∧
    ∀ n, (runAll (decoding len' (ks.take n)) d).range = (runAll (encoding len (ks.take n)) s).range ∧
      (runAll (decoding len' (ks.take n)) d).ix = (runAll (encoding len (ks.take n)) s).ix

/-! ## SR registers and rings -/

/-- R175: SR_RD answers the register of the table of R46, the s16 ones sign-extended and the narrower others
zero-extended, and changes nothing, `PVALID` included; UF_CTX and UF_ADDR otherwise, in this order. -/
def Obligations.SrReadAnswersTheRegister : Prop :=
  ∀ (s : State) (ctx : BitVec 4) (reg : Word16), s.halt = false → s.params.valid = true →
    s.sr.length = s.params.nCtx →
    let i := Instr.srRd ctx reg
    (s.params.nCtx ≤ ctx.toNat → exec i s = .next (faulted s (encode i) 3)) ∧
    (∀ c, s.sr[ctx.toNat]? = some c →
      (∀ e ∈ regs s.params c, e.1 = reg.toNat →
        exec i s = .next (answered s (okWord 0 (wrap e.2).toNat))) ∧
      (¬ isReg s.params reg.toNat → exec i s = .next (faulted s (encode i) 4)))

/-- R176: SR_WR stores the low bits of the value that the register has, clears `PVALID`, and leaves every other
register, every ring and every other context; UF_CTX, UF_ADDR and UF_RO otherwise, in this order. -/
def Obligations.SrWriteStoresTheLowBits : Prop :=
  ∀ (s : State) (ctx : BitVec 4) (reg : Word16) (value : Word32), s.halt = false → s.params.valid = true →
    s.sr.length = s.params.nCtx →
    let i := Instr.srWr ctx reg value
    (s.params.nCtx ≤ ctx.toNat → exec i s = .next (faulted s (encode i) 3)) ∧
    (∀ c, s.sr[ctx.toNat]? = some c → c.shaped s.params = true →
      (¬ isReg s.params reg.toNat → exec i s = .next (faulted s (encode i) 4)) ∧
      (reg.toNat ∈ readOnly → exec i s = .next (faulted s (encode i) 12)) ∧
      (isReg s.params reg.toNat → reg.toNat ∉ readOnly →
        ∃ c', exec i s = .next { s with sr := s.sr.set ctx.toNat c', resp := some (okWord 0 0) } ∧
          regs s.params c' = (regs s.params c).map (fun e =>
            if e.1 = reg.toNat then (e.1, stored e.1 value) else if e.1 = 0x60 then (e.1, 0) else e) ∧
          c'.slpc = c.slpc ∧ c'.sltp = c.sltp ∧ c'.sshp = c.sshp ∧ c'.shaped s.params = true))

/-- R177: SR_PEEK answers the cell that was pushed `k` pushes ago and changes nothing; UF_CTX, and UF_ADDR for
ring 3, position 0 or a position beyond the depth. -/
def Obligations.SrPeekAnswersTheCell : Prop :=
  ∀ (s : State) (ctx : BitVec 4) (ring : BitVec 2) (k : BitVec 14), s.halt = false →
    s.sr.length = s.params.nCtx →
    let i := Instr.srPeek ctx ring k
    (s.params.nCtx ≤ ctx.toNat → exec i s = .next (faulted s (encode i) 3)) ∧
    (∀ c, s.sr[ctx.toNat]? = some c → c.shaped s.params = true →
      let cells := [c.slpc, c.sltp, c.sshp]
      (ring = 3 ∨ k = 0 ∨ (∀ l, cells[ring.toNat]? = some l → l.length < k.toNat) →
        exec i s = .next (faulted s (encode i) 4)) ∧
      (∀ l v, k ≠ 0 → cells[ring.toNat]? = some l → l[k.toNat - 1]? = some v →
        exec i s = .next (answered s (okWord 0 v.toNat))))

/-- R178: SR_POKE overwrites that cell, moves nothing, clears `PVALID` and leaves everything else; faults as
SR_PEEK. -/
def Obligations.SrPokeOverwritesTheCell : Prop :=
  ∀ (s : State) (ctx : BitVec 4) (ring : BitVec 2) (k : BitVec 14) (value : Word32), s.halt = false →
    s.sr.length = s.params.nCtx →
    let i := Instr.srPoke ctx ring k value
    (s.params.nCtx ≤ ctx.toNat → exec i s = .next (faulted s (encode i) 3)) ∧
    (∀ c, s.sr[ctx.toNat]? = some c → c.shaped s.params = true →
      let cells := [c.slpc, c.sltp, c.sshp]
      (ring = 3 ∨ k = 0 ∨ (∀ l, cells[ring.toNat]? = some l → l.length < k.toNat) →
        exec i s = .next (faulted s (encode i) 4)) ∧
      (∀ l, k ≠ 0 → cells[ring.toNat]? = some l → k.toNat ≤ l.length →
        exec i s = .next { s with
          sr := s.sr.set ctx.toNat { c with
            slpc := if ring = 0 then c.slpc.set (k.toNat - 1) value else c.slpc,
            sltp := if ring = 1 then c.sltp.set (k.toNat - 1) value else c.sltp,
            sshp := if ring = 2 then c.sshp.set (k.toNat - 1) value else c.sshp,
            pvalid := false },
          resp := some (okWord 0 0) }))

/-- R146: SR_COPY copies every register, ring cell, latch, counter and `PVALID` of the source context into the
destination and leaves every other context; a context that does not exist is UF_CTX. -/
def Obligations.SrCopyCopiesTheContext : Prop :=
  ∀ (s : State) (dst : BitVec 4) (src : Word16), s.halt = false → s.sr.length = s.params.nCtx →
    let i := Instr.srCopy dst src
    (s.params.nCtx ≤ dst.toNat ∨ s.params.nCtx ≤ src.toNat → exec i s = .next (faulted s (encode i) 3)) ∧
    (∀ c, dst.toNat < s.params.nCtx → s.sr[src.toNat]? = some c →
      exec i s = .next { s with sr := s.sr.set dst.toNat c, resp := some (okWord 0 0) })

/-- R147: SR_CLEAR zeroes every register, latch, counter and ring cell of its context, which is then as after
reset, and leaves everything else; a context that does not exist is UF_CTX. -/
def Obligations.SrClearZeroesTheContext : Prop :=
  ∀ (s : State) (ctx : BitVec 4), s.halt = false → s.sr.length = s.params.nCtx →
    let i := Instr.srClear ctx
    (s.params.nCtx ≤ ctx.toNat → exec i s = .next (faulted s (encode i) 3)) ∧
    (ctx.toNat < s.params.nCtx → ∃ c,
      exec i s = .next { s with sr := s.sr.set ctx.toNat c, resp := some (okWord 0 0) } ∧
      (∀ e ∈ regs s.params c, e.2 = 0) ∧
      c.slpc = List.replicate s.params.slpcDepth 0 ∧ c.sltp = List.replicate s.params.ringDepth 0 ∧
      c.sshp = List.replicate s.params.ringDepth 0 ∧
      ∀ epoch port, (State.afterReset s.params epoch port).sr[ctx.toNat]? = some c)

/-! ## Synthesis recursion -/

/-- R131: the checks of SR_PREDICT, in their order; past them it takes its effect. -/
def Obligations.PredictChecksInOrder : Prop :=
  ∀ (s : State) (ctx : BitVec 4) (x : Word32), s.halt = false → s.sr.length = s.params.nCtx →
    let i := Instr.srPredict ctx x
    (s.params.nCtx ≤ ctx.toNat → exec i s = .next (faulted s (encode i) 3)) ∧
    (∀ c, s.sr[ctx.toNat]? = some c →
      (c.pvalid = true → exec i s = .next (faulted s (encode i) 10)) ∧
      (c.pvalid = false → badOrder s.params.lpcOrdMin s.params.lpcOrdMax c.lpcOrd.toNat ∨
          badOrder s.params.shpOrdMin s.params.shpOrdMax c.shpOrd.toNat →
        exec i s = .next (faulted s (encode i) 8)) ∧
      (c.pvalid = false → ¬ badOrder s.params.lpcOrdMin s.params.lpcOrdMax c.lpcOrd.toNat →
        ¬ badOrder s.params.shpOrdMin s.params.shpOrdMax c.shpOrd.toNat → badLag s.params c →
        exec i s = .next (faulted s (encode i) 9)) ∧
      (c.pvalid = false → accepted s.params c →
        ∃ t r, exec i s = .next t ∧ t.halt = false ∧ t.resp = some r ∧ classOf r = 0))

/-- R133 to R140: SR_PREDICT advances the seed, latches the five terms, the dither mask and the residual, sets
`PVALID`, answers the residual, and changes nothing else: no ring, no coefficient, not `LFAR`, not the
cursors. The terms and the residual are the formulas of the rules on integers. -/
def Obligations.PredictComputesTheResidual : Prop :=
  ∀ (s : State) (ctx : BitVec 4) (x : Word32) (c : SrContext), s.halt = false → ctx.toNat < s.params.nCtx →
    s.sr[ctx.toNat]? = some c → c.pvalid = false → accepted s.params c →
    exec (.srPredict ctx x) s = .next { s with
      sr := s.sr.set ctx.toNat { c with
        seed := seedAfter s.params c.seed
        lLpc := lpcTerm c
        lLtp := ltpTerm c
        lNar := narTerm c
        lNlf := nlfTerm c
        lNltp := nltpTerm c
        lDither := if dithers s.params c.seed then 0xFFFFFFFF else 0
        lR := residualOf s.params c x
        pvalid := true },
      resp := some (okWord 0 (residualOf s.params c x).toNat) }

/-- Derived from 41_sr_commands.md section 2 (the clamp, both bounds inclusive): what SR_PREDICT answers is
within the clamp, from every good state. -/
def Obligations.ResidualIsClamped : Prop :=
  ∀ (s t : State) (ctx : BitVec 4) (x : Word32) (r : Word64), s.Inv → exec (.srPredict ctx x) s = .next t →
    t.resp = some r → classOf r = 0 →
    -(s.params.rClamp : Int) ≤ (BitVec.ofNat 32 (r0Of r)).toInt ∧
    (BitVec.ofNat 32 (r0Of r)).toInt ≤ (s.params.rClamp : Int)

/-- R142 to R145: SR_COMMIT reconstructs the sample from the pulse and the latches, pushes once on each ring,
writes `LFAR`, counts the pushes, feeds the pulse back into the seed where the instance does, clears `PVALID`,
answers the sample, and changes nothing else. -/
def Obligations.CommitPushesTheSample : Prop :=
  ∀ (s : State) (ctx : BitVec 4) (q : Word32) (c : SrContext), s.halt = false → ctx.toNat < s.params.nCtx →
    s.sr[ctx.toNat]? = some c → c.pvalid = true → c.lDither = 0 ∨ c.lDither = 0xFFFFFFFF →
    c.shaped s.params = true →
    exec (.srCommit ctx q) s = .next { s with
      sr := s.sr.set ctx.toNat { c with
        slpc := (wrap ((sampleOf c q).toInt * 16) :: c.slpc).dropLast
        lfar := wrap ((shapedOf c q).toInt * 4)
        sshp := (wrap ((shapedOf c q).toInt - c.lNlf.toInt) :: c.sshp).dropLast
        sltp := (wrap ((excOf c q).toInt * 64) :: c.sltp).dropLast
        curSltp := c.curSltp + 1
        curSshp := c.curSshp + 1
        seed := if s.params.seedFeedback then c.seed + q else c.seed
        pvalid := false },
      resp := some (okWord 0 (sampleOf c q).toNat) }

/-- R141: the checks of SR_COMMIT; every pulse is accepted, and the orders and the lag are not checked again. -/
def Obligations.CommitNeedsAPrediction : Prop :=
  ∀ (s : State) (ctx : BitVec 4) (q : Word32), s.halt = false → s.sr.length = s.params.nCtx →
    let i := Instr.srCommit ctx q
    (s.params.nCtx ≤ ctx.toNat → exec i s = .next (faulted s (encode i) 3)) ∧
    (∀ c, s.sr[ctx.toNat]? = some c →
      (c.pvalid = false → exec i s = .next (faulted s (encode i) 10)) ∧
      (c.pvalid = true → ∃ t r, exec i s = .next t ∧ t.halt = false ∧ t.resp = some r ∧ classOf r = 0))

/-- R55: where a command answers OK, `PVALID` of a context is set by its SR_PREDICT, which needs it clear;
cleared by its SR_COMMIT, which needs it set, and by SR_WR, SR_POKE and SR_CLEAR on it; copied, with the
latches, by an SR_COPY into it; and left by every other command. A violated requirement is UF_SEQ. The latches
keep their values, `PVALID` or not, until an SR_PREDICT, SR_CLEAR or SR_COPY writes them. -/
def Obligations.PvalidPairsPredictAndCommit : Prop :=
  (∀ (s : State) (ctx : BitVec 4) (w : Word32) (c : SrContext), s.halt = false → ctx.toNat < s.params.nCtx →
    s.sr[ctx.toNat]? = some c →
    (c.pvalid = true → exec (.srPredict ctx w) s = .next (faulted s (encode (.srPredict ctx w)) 10)) ∧
    (c.pvalid = false → exec (.srCommit ctx w) s = .next (faulted s (encode (.srCommit ctx w)) 10))) ∧
  (∀ (i : Instr) (s t : State) (j : Nat) (c c' : SrContext), exec i s = .next t →
    s.sr[j]? = some c → t.sr[j]? = some c' →
    (∀ ctx x, i ≠ .srPredict ctx x) → (∀ ctx, i ≠ .srClear ctx) → (∀ dst src, i ≠ .srCopy dst src) →
    c' = { c' with lLpc := c.lLpc, lLtp := c.lLtp, lNar := c.lNar, lNlf := c.lNlf, lNltp := c.lNltp,
                   lDither := c.lDither, lR := c.lR }) ∧
  ∀ (i : Instr) (s t : State) (j : Nat) (c c' : SrContext) (r : Word64), s.sr.length = s.params.nCtx →
    exec i s = .next t → t.resp = some r → classOf r = 0 → s.sr[j]? = some c → t.sr[j]? = some c' →
    match i with
    | .srPredict ctx _ => if ctx.toNat = j then c.pvalid = false ∧ c'.pvalid = true else c' = c
    | .srCommit ctx _ => if ctx.toNat = j then c.pvalid = true ∧ c'.pvalid = false else c' = c
    | .srWr ctx _ _ => if ctx.toNat = j then c'.pvalid = false else c' = c
    | .srPoke ctx _ _ _ => if ctx.toNat = j then c'.pvalid = false else c' = c
    | .srClear ctx => if ctx.toNat = j then c'.pvalid = false else c' = c
    | .srCopy dst src => if dst.toNat = j then s.sr[src.toNat]? = some c' else c' = c
    | _ => c' = c

/-- R48: no command but SR_WR, SR_CLEAR and SR_COPY changes a coefficient register of any context, and
SR_PREDICT does not read the taps at or above the orders in use, nor `B`, `HARM` and `LAG` when `VOICED` is
0. -/
def Obligations.CoefficientsAreInputs : Prop :=
  (∀ (i : Instr) (s t : State) (j : Nat) (c c' : SrContext), exec i s = .next t →
    (∀ ctx reg v, i ≠ .srWr ctx reg v) → (∀ ctx, i ≠ .srClear ctx) → (∀ dst src, i ≠ .srCopy dst src) →
    s.sr[j]? = some c → t.sr[j]? = some c' →
    c' = { c' with a := c.a, ar := c.ar, b := c.b, harm := c.harm, tilt := c.tilt, lf := c.lf,
                   offset := c.offset, lpcOrd := c.lpcOrd, shpOrd := c.shpOrd, voiced := c.voiced,
                   lag := c.lag }) ∧
  (∀ (s t : State) (ctx : BitVec 4) (x : Word32) (c c' : SrContext) (a ar b : List Word16) (harm : Word32)
      (lag : Word16),
    s.sr[ctx.toNat]? = some c →
    (∀ k, k < c.lpcOrd.toNat → tap a k = tap c.a k) → (∀ k, k < c.shpOrd.toNat → tap ar k = tap c.ar k) →
    (c.voiced = true → b = c.b ∧ harm = c.harm ∧ lag = c.lag) →
    exec (.srPredict ctx x) s = .next t → t.sr[ctx.toNat]? = some c' →
    exec (.srPredict ctx x)
        { s with sr := s.sr.set ctx.toNat { c with a := a, ar := ar, b := b, harm := harm, lag := lag } } =
      .next { t with
        sr := t.sr.set ctx.toNat { c' with a := a, ar := ar, b := b, harm := harm, lag := lag } })

/-- Derived from 41_sr_commands.md section 5 (property 3): with `VOICED = 0` the answers of SR_PREDICT and of
SR_COMMIT do not depend on `B`, `HARM`, `LAG` or the contents of `SLTP`, nor does the next state but for
those; and SR_COMMIT pushes the same value onto `SLTP`, whatever it holds. -/
def Obligations.UnvoicedIgnoresLongTerm : Prop :=
  ∀ (s t : State) (ctx : BitVec 4) (w : Word32) (c c' : SrContext) (b : List Word16) (harm : Word32)
      (lag : Word16) (sltp : List Word32),
    s.sr[ctx.toNat]? = some c → c.voiced = false → c.sltp.length = s.params.ringDepth →
    sltp.length = s.params.ringDepth →
    let s' := { s with sr := s.sr.set ctx.toNat { c with b := b, harm := harm, lag := lag, sltp := sltp } }
    (exec (.srPredict ctx w) s = .next t → t.sr[ctx.toNat]? = some c' → t.halt = false →
      exec (.srPredict ctx w) s' = .next
        { t with sr := t.sr.set ctx.toNat { c' with b := b, harm := harm, lag := lag, sltp := sltp } }) ∧
    (exec (.srCommit ctx w) s = .next t → t.sr[ctx.toNat]? = some c' → t.halt = false →
      ∃ v, c'.sltp = (v :: c.sltp).dropLast ∧
        exec (.srCommit ctx w) s' = .next
          { t with
            sr := t.sr.set ctx.toNat { c' with b := b, harm := harm, lag := lag, sltp := (v :: sltp).dropLast } })

/-- Derived from 41_sr_commands.md section 5 (property 5): a command changes no context but the one it writes,
and does not read a context it does not name. -/
def Obligations.ContextsAreIndependent : Prop :=
  ∀ (i : Instr) (s t : State) (j : Nat), exec i s = .next t →
    ((names i).head? ≠ some j → t.sr[j]? = s.sr[j]?) ∧
    (j ∉ names i → ∀ c, exec i { s with sr := s.sr.set j c } = .next { t with sr := t.sr.set j c })

/-- Derived from 41_sr_commands.md section 5 (property 1, scenario A): on an unvoiced, accepted context with
zero offset, zero histories, zero latches and zero `LFAR`, any taps, every sample of silence answers 0 twice,
and after `n` of them the context is as before but for the seed, which has advanced `n` times, the dither mask
and the counts of pushes. -/
def Obligations.SilenceStaysSilent : Prop :=
  ∀ (s : State) (ctx : BitVec 4) (c : SrContext) (n : Nat), s.halt = false → ctx.toNat < s.params.nCtx →
    s.sr[ctx.toNat]? = some c → c.pvalid = false → accepted s.params c → c.shaped s.params = true →
    c.voiced = false → c.offset = 0 → c.lfar = 0 →
    c.lLpc = 0 → c.lLtp = 0 → c.lNar = 0 → c.lNlf = 0 → c.lNltp = 0 → c.lR = 0 →
    (∀ v ∈ c.slpc, v = 0) → (∀ v ∈ c.sltp, v = 0) → (∀ v ∈ c.sshp, v = 0) →
    (∀ r ∈ answers (silence ctx n) s, r = some (okWord 0 0)) ∧
    ∃ d r, runAll (silence ctx n) s = { s with
      sr := s.sr.set ctx.toNat { c with
        seed := seedAfterSilence s.params c.seed n
        lDither := d
        curSltp := c.curSltp + BitVec.ofNat 32 n
        curSshp := c.curSshp + BitVec.ofNat 32 n },
      resp := r }

/-- Derived from 41_sr_commands.md section 5 (property 2, decoder replay): two states alike but for `L_R` of one
context that get the same register writes, pokes and pulses on it, and predictions of whatever inputs, answer
every SR_COMMIT alike and end alike, as long as nothing faults. -/
def Obligations.DecoderReplaysTheEncoder : Prop :=
  ∀ (ctx : BitVec 4) (s t : State) (script : List (Instr × Instr)),
    alike ctx.toNat s t → (∀ pair ∈ script, replayPair ctx pair) →
    (runAll (script.map Prod.fst) s).halt = false →
    alike ctx.toNat (runAll (script.map Prod.fst) s) (runAll (script.map Prod.snd) t) ∧
    ∀ (k : Nat) (q : Word32), (script.map Prod.fst)[k]? = some (.srCommit ctx q) →
      (answers (script.map Prod.fst) s)[k]? = (answers (script.map Prod.snd) t)[k]?

end Statements
end

