-- ==== Sys2Proof/Laws/State.lean ====
section
/-!
SUPPORT. One lemma per field and update, each true by `rfl`: what every named update of the state, and of
an SR context, leaves in every field. No later proof needs to unfold an update.
-/
namespace Sys2Proof.Machine

/-! ### `State.withBuf` -/

@[simp] theorem State.withBuf_params (s : State) (m : Memory) : (s.withBuf m).params = s.params := rfl
@[simp] theorem State.withBuf_port (s : State) (m : Memory) : (s.withBuf m).port = s.port := rfl
@[simp] theorem State.withBuf_resp (s : State) (m : Memory) : (s.withBuf m).resp = s.resp := rfl
@[simp] theorem State.withBuf_epoch (s : State) (m : Memory) : (s.withBuf m).epoch = s.epoch := rfl
@[simp] theorem State.withBuf_base (s : State) (m : Memory) : (s.withBuf m).base = s.base := rfl
@[simp] theorem State.withBuf_range (s : State) (m : Memory) : (s.withBuf m).range = s.range := rfl
@[simp] theorem State.withBuf_ix (s : State) (m : Memory) : (s.withBuf m).ix = s.ix := rfl
@[simp] theorem State.withBuf_len (s : State) (m : Memory) : (s.withBuf m).len = s.len := rfl
@[simp] theorem State.withBuf_err (s : State) (m : Memory) : (s.withBuf m).err = s.err := rfl
@[simp] theorem State.withBuf_errCode (s : State) (m : Memory) : (s.withBuf m).errCode = s.errCode := rfl
@[simp] theorem State.withBuf_mode (s : State) (m : Memory) : (s.withBuf m).mode = s.mode := rfl
@[simp] theorem State.withBuf_buf (s : State) (m : Memory) : (s.withBuf m).buf = m := rfl
@[simp] theorem State.withBuf_halt (s : State) (m : Memory) : (s.withBuf m).halt = s.halt := rfl
@[simp] theorem State.withBuf_faultCode (s : State) (m : Memory) : (s.withBuf m).faultCode = s.faultCode := rfl
@[simp] theorem State.withBuf_faultInfo (s : State) (m : Memory) : (s.withBuf m).faultInfo = s.faultInfo := rfl
@[simp] theorem State.withBuf_sr (s : State) (m : Memory) : (s.withBuf m).sr = s.sr := rfl

/-! ### `State.withResp` -/

@[simp] theorem State.withResp_params (s : State) (w : Word64) : (s.withResp w).params = s.params := rfl
@[simp] theorem State.withResp_port (s : State) (w : Word64) : (s.withResp w).port = s.port := rfl
@[simp] theorem State.withResp_resp (s : State) (w : Word64) : (s.withResp w).resp = some w := rfl
@[simp] theorem State.withResp_epoch (s : State) (w : Word64) : (s.withResp w).epoch = s.epoch := rfl
@[simp] theorem State.withResp_base (s : State) (w : Word64) : (s.withResp w).base = s.base := rfl
@[simp] theorem State.withResp_range (s : State) (w : Word64) : (s.withResp w).range = s.range := rfl
@[simp] theorem State.withResp_ix (s : State) (w : Word64) : (s.withResp w).ix = s.ix := rfl
@[simp] theorem State.withResp_len (s : State) (w : Word64) : (s.withResp w).len = s.len := rfl
@[simp] theorem State.withResp_err (s : State) (w : Word64) : (s.withResp w).err = s.err := rfl
@[simp] theorem State.withResp_errCode (s : State) (w : Word64) : (s.withResp w).errCode = s.errCode := rfl
@[simp] theorem State.withResp_mode (s : State) (w : Word64) : (s.withResp w).mode = s.mode := rfl
@[simp] theorem State.withResp_buf (s : State) (w : Word64) : (s.withResp w).buf = s.buf := rfl
@[simp] theorem State.withResp_halt (s : State) (w : Word64) : (s.withResp w).halt = s.halt := rfl
@[simp] theorem State.withResp_faultCode (s : State) (w : Word64) : (s.withResp w).faultCode = s.faultCode := rfl
@[simp] theorem State.withResp_faultInfo (s : State) (w : Word64) : (s.withResp w).faultInfo = s.faultInfo := rfl
@[simp] theorem State.withResp_sr (s : State) (w : Word64) : (s.withResp w).sr = s.sr := rfl

/-! ### `State.withCoder` -/

@[simp] theorem State.withCoder_params (s : State) (b : Word32) (r i : Word16) : (s.withCoder b r i).params = s.params := rfl
@[simp] theorem State.withCoder_port (s : State) (b : Word32) (r i : Word16) : (s.withCoder b r i).port = s.port := rfl
@[simp] theorem State.withCoder_resp (s : State) (b : Word32) (r i : Word16) : (s.withCoder b r i).resp = s.resp := rfl
@[simp] theorem State.withCoder_epoch (s : State) (b : Word32) (r i : Word16) : (s.withCoder b r i).epoch = s.epoch := rfl
@[simp] theorem State.withCoder_base (s : State) (b : Word32) (r i : Word16) : (s.withCoder b r i).base = b := rfl
@[simp] theorem State.withCoder_range (s : State) (b : Word32) (r i : Word16) : (s.withCoder b r i).range = r := rfl
@[simp] theorem State.withCoder_ix (s : State) (b : Word32) (r i : Word16) : (s.withCoder b r i).ix = i := rfl
@[simp] theorem State.withCoder_len (s : State) (b : Word32) (r i : Word16) : (s.withCoder b r i).len = s.len := rfl
@[simp] theorem State.withCoder_err (s : State) (b : Word32) (r i : Word16) : (s.withCoder b r i).err = s.err := rfl
@[simp] theorem State.withCoder_errCode (s : State) (b : Word32) (r i : Word16) : (s.withCoder b r i).errCode = s.errCode := rfl
@[simp] theorem State.withCoder_mode (s : State) (b : Word32) (r i : Word16) : (s.withCoder b r i).mode = s.mode := rfl
@[simp] theorem State.withCoder_buf (s : State) (b : Word32) (r i : Word16) : (s.withCoder b r i).buf = s.buf := rfl
@[simp] theorem State.withCoder_halt (s : State) (b : Word32) (r i : Word16) : (s.withCoder b r i).halt = s.halt := rfl
@[simp] theorem State.withCoder_faultCode (s : State) (b : Word32) (r i : Word16) : (s.withCoder b r i).faultCode = s.faultCode := rfl
@[simp] theorem State.withCoder_faultInfo (s : State) (b : Word32) (r i : Word16) : (s.withCoder b r i).faultInfo = s.faultInfo := rfl
@[simp] theorem State.withCoder_sr (s : State) (b : Word32) (r i : Word16) : (s.withCoder b r i).sr = s.sr := rfl

/-! ### `State.withSession` -/

@[simp] theorem State.withSession_params (s : State) (m : RcMode) (b : Word32) (l : Word16) : (s.withSession m b l).params = s.params := rfl
@[simp] theorem State.withSession_port (s : State) (m : RcMode) (b : Word32) (l : Word16) : (s.withSession m b l).port = s.port := rfl
@[simp] theorem State.withSession_resp (s : State) (m : RcMode) (b : Word32) (l : Word16) : (s.withSession m b l).resp = s.resp := rfl
@[simp] theorem State.withSession_epoch (s : State) (m : RcMode) (b : Word32) (l : Word16) : (s.withSession m b l).epoch = s.epoch := rfl
@[simp] theorem State.withSession_base (s : State) (m : RcMode) (b : Word32) (l : Word16) : (s.withSession m b l).base = b := rfl
@[simp] theorem State.withSession_range (s : State) (m : RcMode) (b : Word32) (l : Word16) : (s.withSession m b l).range = 0xFFFF := rfl
@[simp] theorem State.withSession_ix (s : State) (m : RcMode) (b : Word32) (l : Word16) : (s.withSession m b l).ix = 0 := rfl
@[simp] theorem State.withSession_len (s : State) (m : RcMode) (b : Word32) (l : Word16) : (s.withSession m b l).len = l := rfl
@[simp] theorem State.withSession_err (s : State) (m : RcMode) (b : Word32) (l : Word16) : (s.withSession m b l).err = s.err := rfl
@[simp] theorem State.withSession_errCode (s : State) (m : RcMode) (b : Word32) (l : Word16) : (s.withSession m b l).errCode = s.errCode := rfl
@[simp] theorem State.withSession_mode (s : State) (m : RcMode) (b : Word32) (l : Word16) : (s.withSession m b l).mode = m := rfl
@[simp] theorem State.withSession_buf (s : State) (m : RcMode) (b : Word32) (l : Word16) : (s.withSession m b l).buf = s.buf := rfl
@[simp] theorem State.withSession_halt (s : State) (m : RcMode) (b : Word32) (l : Word16) : (s.withSession m b l).halt = s.halt := rfl
@[simp] theorem State.withSession_faultCode (s : State) (m : RcMode) (b : Word32) (l : Word16) : (s.withSession m b l).faultCode = s.faultCode := rfl
@[simp] theorem State.withSession_faultInfo (s : State) (m : RcMode) (b : Word32) (l : Word16) : (s.withSession m b l).faultInfo = s.faultInfo := rfl
@[simp] theorem State.withSession_sr (s : State) (m : RcMode) (b : Word32) (l : Word16) : (s.withSession m b l).sr = s.sr := rfl

/-! ### `State.withFinished` -/

@[simp] theorem State.withFinished_params (s : State) (i : Word16) : (s.withFinished i).params = s.params := rfl
@[simp] theorem State.withFinished_port (s : State) (i : Word16) : (s.withFinished i).port = s.port := rfl
@[simp] theorem State.withFinished_resp (s : State) (i : Word16) : (s.withFinished i).resp = s.resp := rfl
@[simp] theorem State.withFinished_epoch (s : State) (i : Word16) : (s.withFinished i).epoch = s.epoch := rfl
@[simp] theorem State.withFinished_base (s : State) (i : Word16) : (s.withFinished i).base = s.base := rfl
@[simp] theorem State.withFinished_range (s : State) (i : Word16) : (s.withFinished i).range = s.range := rfl
@[simp] theorem State.withFinished_ix (s : State) (i : Word16) : (s.withFinished i).ix = i := rfl
@[simp] theorem State.withFinished_len (s : State) (i : Word16) : (s.withFinished i).len = s.len := rfl
@[simp] theorem State.withFinished_err (s : State) (i : Word16) : (s.withFinished i).err = s.err := rfl
@[simp] theorem State.withFinished_errCode (s : State) (i : Word16) : (s.withFinished i).errCode = s.errCode := rfl
@[simp] theorem State.withFinished_mode (s : State) (i : Word16) : (s.withFinished i).mode = .fin := rfl
@[simp] theorem State.withFinished_buf (s : State) (i : Word16) : (s.withFinished i).buf = s.buf := rfl
@[simp] theorem State.withFinished_halt (s : State) (i : Word16) : (s.withFinished i).halt = s.halt := rfl
@[simp] theorem State.withFinished_faultCode (s : State) (i : Word16) : (s.withFinished i).faultCode = s.faultCode := rfl
@[simp] theorem State.withFinished_faultInfo (s : State) (i : Word16) : (s.withFinished i).faultInfo = s.faultInfo := rfl
@[simp] theorem State.withFinished_sr (s : State) (i : Word16) : (s.withFinished i).sr = s.sr := rfl

/-! ### `State.withErr` -/

@[simp] theorem State.withErr_params (s : State) (e : RcError) : (s.withErr e).params = s.params := rfl
@[simp] theorem State.withErr_port (s : State) (e : RcError) : (s.withErr e).port = s.port := rfl
@[simp] theorem State.withErr_resp (s : State) (e : RcError) : (s.withErr e).resp = s.resp := rfl
@[simp] theorem State.withErr_epoch (s : State) (e : RcError) : (s.withErr e).epoch = s.epoch := rfl
@[simp] theorem State.withErr_base (s : State) (e : RcError) : (s.withErr e).base = s.base := rfl
@[simp] theorem State.withErr_range (s : State) (e : RcError) : (s.withErr e).range = s.range := rfl
@[simp] theorem State.withErr_ix (s : State) (e : RcError) : (s.withErr e).ix = s.ix := rfl
@[simp] theorem State.withErr_len (s : State) (e : RcError) : (s.withErr e).len = s.len := rfl
@[simp] theorem State.withErr_err (s : State) (e : RcError) : (s.withErr e).err = true := rfl
@[simp] theorem State.withErr_errCode (s : State) (e : RcError) : (s.withErr e).errCode = e.code := rfl
@[simp] theorem State.withErr_mode (s : State) (e : RcError) : (s.withErr e).mode = s.mode := rfl
@[simp] theorem State.withErr_buf (s : State) (e : RcError) : (s.withErr e).buf = s.buf := rfl
@[simp] theorem State.withErr_halt (s : State) (e : RcError) : (s.withErr e).halt = s.halt := rfl
@[simp] theorem State.withErr_faultCode (s : State) (e : RcError) : (s.withErr e).faultCode = s.faultCode := rfl
@[simp] theorem State.withErr_faultInfo (s : State) (e : RcError) : (s.withErr e).faultInfo = s.faultInfo := rfl
@[simp] theorem State.withErr_sr (s : State) (e : RcError) : (s.withErr e).sr = s.sr := rfl

/-! ### `State.withoutErr` -/

@[simp] theorem State.withoutErr_params (s : State) : (s.withoutErr).params = s.params := rfl
@[simp] theorem State.withoutErr_port (s : State) : (s.withoutErr).port = s.port := rfl
@[simp] theorem State.withoutErr_resp (s : State) : (s.withoutErr).resp = s.resp := rfl
@[simp] theorem State.withoutErr_epoch (s : State) : (s.withoutErr).epoch = s.epoch := rfl
@[simp] theorem State.withoutErr_base (s : State) : (s.withoutErr).base = s.base := rfl
@[simp] theorem State.withoutErr_range (s : State) : (s.withoutErr).range = s.range := rfl
@[simp] theorem State.withoutErr_ix (s : State) : (s.withoutErr).ix = s.ix := rfl
@[simp] theorem State.withoutErr_len (s : State) : (s.withoutErr).len = s.len := rfl
@[simp] theorem State.withoutErr_err (s : State) : (s.withoutErr).err = false := rfl
@[simp] theorem State.withoutErr_errCode (s : State) : (s.withoutErr).errCode = 0 := rfl
@[simp] theorem State.withoutErr_mode (s : State) : (s.withoutErr).mode = s.mode := rfl
@[simp] theorem State.withoutErr_buf (s : State) : (s.withoutErr).buf = s.buf := rfl
@[simp] theorem State.withoutErr_halt (s : State) : (s.withoutErr).halt = s.halt := rfl
@[simp] theorem State.withoutErr_faultCode (s : State) : (s.withoutErr).faultCode = s.faultCode := rfl
@[simp] theorem State.withoutErr_faultInfo (s : State) : (s.withoutErr).faultInfo = s.faultInfo := rfl
@[simp] theorem State.withoutErr_sr (s : State) : (s.withoutErr).sr = s.sr := rfl

/-! ### `State.withFault` -/

@[simp] theorem State.withFault_params (s : State) (f : UsageFault) (w : Word64) : (s.withFault f w).params = s.params := rfl
@[simp] theorem State.withFault_port (s : State) (f : UsageFault) (w : Word64) : (s.withFault f w).port = s.port := rfl
@[simp] theorem State.withFault_resp (s : State) (f : UsageFault) (w : Word64) : (s.withFault f w).resp = s.resp := rfl
@[simp] theorem State.withFault_epoch (s : State) (f : UsageFault) (w : Word64) : (s.withFault f w).epoch = s.epoch := rfl
@[simp] theorem State.withFault_base (s : State) (f : UsageFault) (w : Word64) : (s.withFault f w).base = s.base := rfl
@[simp] theorem State.withFault_range (s : State) (f : UsageFault) (w : Word64) : (s.withFault f w).range = s.range := rfl
@[simp] theorem State.withFault_ix (s : State) (f : UsageFault) (w : Word64) : (s.withFault f w).ix = s.ix := rfl
@[simp] theorem State.withFault_len (s : State) (f : UsageFault) (w : Word64) : (s.withFault f w).len = s.len := rfl
@[simp] theorem State.withFault_err (s : State) (f : UsageFault) (w : Word64) : (s.withFault f w).err = s.err := rfl
@[simp] theorem State.withFault_errCode (s : State) (f : UsageFault) (w : Word64) : (s.withFault f w).errCode = s.errCode := rfl
@[simp] theorem State.withFault_mode (s : State) (f : UsageFault) (w : Word64) : (s.withFault f w).mode = s.mode := rfl
@[simp] theorem State.withFault_buf (s : State) (f : UsageFault) (w : Word64) : (s.withFault f w).buf = s.buf := rfl
@[simp] theorem State.withFault_halt (s : State) (f : UsageFault) (w : Word64) : (s.withFault f w).halt = true := rfl
@[simp] theorem State.withFault_faultCode (s : State) (f : UsageFault) (w : Word64) : (s.withFault f w).faultCode = f.code := rfl
@[simp] theorem State.withFault_faultInfo (s : State) (f : UsageFault) (w : Word64) : (s.withFault f w).faultInfo = w := rfl
@[simp] theorem State.withFault_sr (s : State) (f : UsageFault) (w : Word64) : (s.withFault f w).sr = s.sr := rfl

/-! ### `State.withCtx` -/

@[simp] theorem State.withCtx_params (s : State) (c : Nat) (x : SrContext) : (s.withCtx c x).params = s.params := rfl
@[simp] theorem State.withCtx_port (s : State) (c : Nat) (x : SrContext) : (s.withCtx c x).port = s.port := rfl
@[simp] theorem State.withCtx_resp (s : State) (c : Nat) (x : SrContext) : (s.withCtx c x).resp = s.resp := rfl
@[simp] theorem State.withCtx_epoch (s : State) (c : Nat) (x : SrContext) : (s.withCtx c x).epoch = s.epoch := rfl
@[simp] theorem State.withCtx_base (s : State) (c : Nat) (x : SrContext) : (s.withCtx c x).base = s.base := rfl
@[simp] theorem State.withCtx_range (s : State) (c : Nat) (x : SrContext) : (s.withCtx c x).range = s.range := rfl
@[simp] theorem State.withCtx_ix (s : State) (c : Nat) (x : SrContext) : (s.withCtx c x).ix = s.ix := rfl
@[simp] theorem State.withCtx_len (s : State) (c : Nat) (x : SrContext) : (s.withCtx c x).len = s.len := rfl
@[simp] theorem State.withCtx_err (s : State) (c : Nat) (x : SrContext) : (s.withCtx c x).err = s.err := rfl
@[simp] theorem State.withCtx_errCode (s : State) (c : Nat) (x : SrContext) : (s.withCtx c x).errCode = s.errCode := rfl
@[simp] theorem State.withCtx_mode (s : State) (c : Nat) (x : SrContext) : (s.withCtx c x).mode = s.mode := rfl
@[simp] theorem State.withCtx_buf (s : State) (c : Nat) (x : SrContext) : (s.withCtx c x).buf = s.buf := rfl
@[simp] theorem State.withCtx_halt (s : State) (c : Nat) (x : SrContext) : (s.withCtx c x).halt = s.halt := rfl
@[simp] theorem State.withCtx_faultCode (s : State) (c : Nat) (x : SrContext) : (s.withCtx c x).faultCode = s.faultCode := rfl
@[simp] theorem State.withCtx_faultInfo (s : State) (c : Nat) (x : SrContext) : (s.withCtx c x).faultInfo = s.faultInfo := rfl
@[simp] theorem State.withCtx_sr (s : State) (c : Nat) (x : SrContext) : (s.withCtx c x).sr = s.sr.set c x := rfl

/-! ### `State.withPort` -/

@[simp] theorem State.withPort_params (s : State) (q : List HostEvent) : (s.withPort q).params = s.params := rfl
@[simp] theorem State.withPort_port (s : State) (q : List HostEvent) : (s.withPort q).port = q := rfl
@[simp] theorem State.withPort_resp (s : State) (q : List HostEvent) : (s.withPort q).resp = s.resp := rfl
@[simp] theorem State.withPort_epoch (s : State) (q : List HostEvent) : (s.withPort q).epoch = s.epoch := rfl
@[simp] theorem State.withPort_base (s : State) (q : List HostEvent) : (s.withPort q).base = s.base := rfl
@[simp] theorem State.withPort_range (s : State) (q : List HostEvent) : (s.withPort q).range = s.range := rfl
@[simp] theorem State.withPort_ix (s : State) (q : List HostEvent) : (s.withPort q).ix = s.ix := rfl
@[simp] theorem State.withPort_len (s : State) (q : List HostEvent) : (s.withPort q).len = s.len := rfl
@[simp] theorem State.withPort_err (s : State) (q : List HostEvent) : (s.withPort q).err = s.err := rfl
@[simp] theorem State.withPort_errCode (s : State) (q : List HostEvent) : (s.withPort q).errCode = s.errCode := rfl
@[simp] theorem State.withPort_mode (s : State) (q : List HostEvent) : (s.withPort q).mode = s.mode := rfl
@[simp] theorem State.withPort_buf (s : State) (q : List HostEvent) : (s.withPort q).buf = s.buf := rfl
@[simp] theorem State.withPort_halt (s : State) (q : List HostEvent) : (s.withPort q).halt = s.halt := rfl
@[simp] theorem State.withPort_faultCode (s : State) (q : List HostEvent) : (s.withPort q).faultCode = s.faultCode := rfl
@[simp] theorem State.withPort_faultInfo (s : State) (q : List HostEvent) : (s.withPort q).faultInfo = s.faultInfo := rfl
@[simp] theorem State.withPort_sr (s : State) (q : List HostEvent) : (s.withPort q).sr = s.sr := rfl

/-! ### `State.resetBlock` and `State.afterReset` -/

@[simp] theorem State.resetBlock_params (s : State) : s.resetBlock.params = s.params := rfl
@[simp] theorem State.resetBlock_port (s : State) : s.resetBlock.port = s.port := rfl
@[simp] theorem State.resetBlock_resp (s : State) : s.resetBlock.resp = none := rfl
@[simp] theorem State.resetBlock_epoch (s : State) : s.resetBlock.epoch = s.epoch + 1 := rfl
@[simp] theorem State.resetBlock_base (s : State) : s.resetBlock.base = 0 := rfl
@[simp] theorem State.resetBlock_range (s : State) : s.resetBlock.range = 0 := rfl
@[simp] theorem State.resetBlock_ix (s : State) : s.resetBlock.ix = 0 := rfl
@[simp] theorem State.resetBlock_len (s : State) : s.resetBlock.len = 0 := rfl
@[simp] theorem State.resetBlock_err (s : State) : s.resetBlock.err = false := rfl
@[simp] theorem State.resetBlock_errCode (s : State) : s.resetBlock.errCode = 0 := rfl
@[simp] theorem State.resetBlock_mode (s : State) : s.resetBlock.mode = .idle := rfl
@[simp] theorem State.resetBlock_buf (s : State) : s.resetBlock.buf = [] := rfl
@[simp] theorem State.resetBlock_halt (s : State) : s.resetBlock.halt = false := rfl
@[simp] theorem State.resetBlock_faultCode (s : State) : s.resetBlock.faultCode = 0 := rfl
@[simp] theorem State.resetBlock_faultInfo (s : State) : s.resetBlock.faultInfo = 0 := rfl
@[simp] theorem State.resetBlock_sr (s : State) : s.resetBlock.sr = List.replicate s.params.nCtx (SrContext.zero s.params) := rfl

/-! ### `SrContext.withoutPvalid` -/

@[simp] theorem SrContext.withoutPvalid_a (c : SrContext) : (c.withoutPvalid).a = c.a := rfl
@[simp] theorem SrContext.withoutPvalid_ar (c : SrContext) : (c.withoutPvalid).ar = c.ar := rfl
@[simp] theorem SrContext.withoutPvalid_b (c : SrContext) : (c.withoutPvalid).b = c.b := rfl
@[simp] theorem SrContext.withoutPvalid_harm (c : SrContext) : (c.withoutPvalid).harm = c.harm := rfl
@[simp] theorem SrContext.withoutPvalid_tilt (c : SrContext) : (c.withoutPvalid).tilt = c.tilt := rfl
@[simp] theorem SrContext.withoutPvalid_lf (c : SrContext) : (c.withoutPvalid).lf = c.lf := rfl
@[simp] theorem SrContext.withoutPvalid_offset (c : SrContext) : (c.withoutPvalid).offset = c.offset := rfl
@[simp] theorem SrContext.withoutPvalid_lpcOrd (c : SrContext) : (c.withoutPvalid).lpcOrd = c.lpcOrd := rfl
@[simp] theorem SrContext.withoutPvalid_shpOrd (c : SrContext) : (c.withoutPvalid).shpOrd = c.shpOrd := rfl
@[simp] theorem SrContext.withoutPvalid_voiced (c : SrContext) : (c.withoutPvalid).voiced = c.voiced := rfl
@[simp] theorem SrContext.withoutPvalid_lag (c : SrContext) : (c.withoutPvalid).lag = c.lag := rfl
@[simp] theorem SrContext.withoutPvalid_seed (c : SrContext) : (c.withoutPvalid).seed = c.seed := rfl
@[simp] theorem SrContext.withoutPvalid_lfar (c : SrContext) : (c.withoutPvalid).lfar = c.lfar := rfl
@[simp] theorem SrContext.withoutPvalid_pvalid (c : SrContext) : (c.withoutPvalid).pvalid = false := rfl
@[simp] theorem SrContext.withoutPvalid_lLpc (c : SrContext) : (c.withoutPvalid).lLpc = c.lLpc := rfl
@[simp] theorem SrContext.withoutPvalid_lLtp (c : SrContext) : (c.withoutPvalid).lLtp = c.lLtp := rfl
@[simp] theorem SrContext.withoutPvalid_lNar (c : SrContext) : (c.withoutPvalid).lNar = c.lNar := rfl
@[simp] theorem SrContext.withoutPvalid_lNlf (c : SrContext) : (c.withoutPvalid).lNlf = c.lNlf := rfl
@[simp] theorem SrContext.withoutPvalid_lNltp (c : SrContext) : (c.withoutPvalid).lNltp = c.lNltp := rfl
@[simp] theorem SrContext.withoutPvalid_lDither (c : SrContext) : (c.withoutPvalid).lDither = c.lDither := rfl
@[simp] theorem SrContext.withoutPvalid_lR (c : SrContext) : (c.withoutPvalid).lR = c.lR := rfl
@[simp] theorem SrContext.withoutPvalid_curSltp (c : SrContext) : (c.withoutPvalid).curSltp = c.curSltp := rfl
@[simp] theorem SrContext.withoutPvalid_curSshp (c : SrContext) : (c.withoutPvalid).curSshp = c.curSshp := rfl
@[simp] theorem SrContext.withoutPvalid_slpc (c : SrContext) : (c.withoutPvalid).slpc = c.slpc := rfl
@[simp] theorem SrContext.withoutPvalid_sltp (c : SrContext) : (c.withoutPvalid).sltp = c.sltp := rfl
@[simp] theorem SrContext.withoutPvalid_sshp (c : SrContext) : (c.withoutPvalid).sshp = c.sshp := rfl

/-! ### `SrContext.predicted` -/

@[simp] theorem SrContext.predicted_a (c : SrContext) (p : Params) (x : Word32) : (c.predicted p x).a = c.a := rfl
@[simp] theorem SrContext.predicted_ar (c : SrContext) (p : Params) (x : Word32) : (c.predicted p x).ar = c.ar := rfl
@[simp] theorem SrContext.predicted_b (c : SrContext) (p : Params) (x : Word32) : (c.predicted p x).b = c.b := rfl
@[simp] theorem SrContext.predicted_harm (c : SrContext) (p : Params) (x : Word32) : (c.predicted p x).harm = c.harm := rfl
@[simp] theorem SrContext.predicted_tilt (c : SrContext) (p : Params) (x : Word32) : (c.predicted p x).tilt = c.tilt := rfl
@[simp] theorem SrContext.predicted_lf (c : SrContext) (p : Params) (x : Word32) : (c.predicted p x).lf = c.lf := rfl
@[simp] theorem SrContext.predicted_offset (c : SrContext) (p : Params) (x : Word32) : (c.predicted p x).offset = c.offset := rfl
@[simp] theorem SrContext.predicted_lpcOrd (c : SrContext) (p : Params) (x : Word32) : (c.predicted p x).lpcOrd = c.lpcOrd := rfl
@[simp] theorem SrContext.predicted_shpOrd (c : SrContext) (p : Params) (x : Word32) : (c.predicted p x).shpOrd = c.shpOrd := rfl
@[simp] theorem SrContext.predicted_voiced (c : SrContext) (p : Params) (x : Word32) : (c.predicted p x).voiced = c.voiced := rfl
@[simp] theorem SrContext.predicted_lag (c : SrContext) (p : Params) (x : Word32) : (c.predicted p x).lag = c.lag := rfl
@[simp] theorem SrContext.predicted_seed (c : SrContext) (p : Params) (x : Word32) : (c.predicted p x).seed = nextSeed p c.seed := rfl
@[simp] theorem SrContext.predicted_lfar (c : SrContext) (p : Params) (x : Word32) : (c.predicted p x).lfar = c.lfar := rfl
@[simp] theorem SrContext.predicted_pvalid (c : SrContext) (p : Params) (x : Word32) : (c.predicted p x).pvalid = true := rfl
@[simp] theorem SrContext.predicted_lLpc (c : SrContext) (p : Params) (x : Word32) : (c.predicted p x).lLpc = c.termLpc := rfl
@[simp] theorem SrContext.predicted_lLtp (c : SrContext) (p : Params) (x : Word32) : (c.predicted p x).lLtp = c.termLtp := rfl
@[simp] theorem SrContext.predicted_lNar (c : SrContext) (p : Params) (x : Word32) : (c.predicted p x).lNar = c.termNar := rfl
@[simp] theorem SrContext.predicted_lNlf (c : SrContext) (p : Params) (x : Word32) : (c.predicted p x).lNlf = c.termNlf := rfl
@[simp] theorem SrContext.predicted_lNltp (c : SrContext) (p : Params) (x : Word32) : (c.predicted p x).lNltp = c.termNltp := rfl
@[simp] theorem SrContext.predicted_lDither (c : SrContext) (p : Params) (x : Word32) : (c.predicted p x).lDither = ditherMask (nextSeed p c.seed) := rfl
@[simp] theorem SrContext.predicted_lR (c : SrContext) (p : Params) (x : Word32) : (c.predicted p x).lR = c.residual p x := rfl
@[simp] theorem SrContext.predicted_curSltp (c : SrContext) (p : Params) (x : Word32) : (c.predicted p x).curSltp = c.curSltp := rfl
@[simp] theorem SrContext.predicted_curSshp (c : SrContext) (p : Params) (x : Word32) : (c.predicted p x).curSshp = c.curSshp := rfl
@[simp] theorem SrContext.predicted_slpc (c : SrContext) (p : Params) (x : Word32) : (c.predicted p x).slpc = c.slpc := rfl
@[simp] theorem SrContext.predicted_sltp (c : SrContext) (p : Params) (x : Word32) : (c.predicted p x).sltp = c.sltp := rfl
@[simp] theorem SrContext.predicted_sshp (c : SrContext) (p : Params) (x : Word32) : (c.predicted p x).sshp = c.sshp := rfl

/-! ### `SrContext.committed` -/

@[simp] theorem SrContext.committed_a (c : SrContext) (p : Params) (q : Word32) : (c.committed p q).a = c.a := rfl
@[simp] theorem SrContext.committed_ar (c : SrContext) (p : Params) (q : Word32) : (c.committed p q).ar = c.ar := rfl
@[simp] theorem SrContext.committed_b (c : SrContext) (p : Params) (q : Word32) : (c.committed p q).b = c.b := rfl
@[simp] theorem SrContext.committed_harm (c : SrContext) (p : Params) (q : Word32) : (c.committed p q).harm = c.harm := rfl
@[simp] theorem SrContext.committed_tilt (c : SrContext) (p : Params) (q : Word32) : (c.committed p q).tilt = c.tilt := rfl
@[simp] theorem SrContext.committed_lf (c : SrContext) (p : Params) (q : Word32) : (c.committed p q).lf = c.lf := rfl
@[simp] theorem SrContext.committed_offset (c : SrContext) (p : Params) (q : Word32) : (c.committed p q).offset = c.offset := rfl
@[simp] theorem SrContext.committed_lpcOrd (c : SrContext) (p : Params) (q : Word32) : (c.committed p q).lpcOrd = c.lpcOrd := rfl
@[simp] theorem SrContext.committed_shpOrd (c : SrContext) (p : Params) (q : Word32) : (c.committed p q).shpOrd = c.shpOrd := rfl
@[simp] theorem SrContext.committed_voiced (c : SrContext) (p : Params) (q : Word32) : (c.committed p q).voiced = c.voiced := rfl
@[simp] theorem SrContext.committed_lag (c : SrContext) (p : Params) (q : Word32) : (c.committed p q).lag = c.lag := rfl
@[simp] theorem SrContext.committed_seed (c : SrContext) (p : Params) (q : Word32) : (c.committed p q).seed = if p.seedFeedback then c.seed + q else c.seed := rfl
@[simp] theorem SrContext.committed_lfar (c : SrContext) (p : Params) (q : Word32) : (c.committed p q).lfar = (c.reconstructed q - c.lNar) <<< 2 := rfl
@[simp] theorem SrContext.committed_pvalid (c : SrContext) (p : Params) (q : Word32) : (c.committed p q).pvalid = false := rfl
@[simp] theorem SrContext.committed_lLpc (c : SrContext) (p : Params) (q : Word32) : (c.committed p q).lLpc = c.lLpc := rfl
@[simp] theorem SrContext.committed_lLtp (c : SrContext) (p : Params) (q : Word32) : (c.committed p q).lLtp = c.lLtp := rfl
@[simp] theorem SrContext.committed_lNar (c : SrContext) (p : Params) (q : Word32) : (c.committed p q).lNar = c.lNar := rfl
@[simp] theorem SrContext.committed_lNlf (c : SrContext) (p : Params) (q : Word32) : (c.committed p q).lNlf = c.lNlf := rfl
@[simp] theorem SrContext.committed_lNltp (c : SrContext) (p : Params) (q : Word32) : (c.committed p q).lNltp = c.lNltp := rfl
@[simp] theorem SrContext.committed_lDither (c : SrContext) (p : Params) (q : Word32) : (c.committed p q).lDither = c.lDither := rfl
@[simp] theorem SrContext.committed_lR (c : SrContext) (p : Params) (q : Word32) : (c.committed p q).lR = c.lR := rfl
@[simp] theorem SrContext.committed_curSltp (c : SrContext) (p : Params) (q : Word32) : (c.committed p q).curSltp = c.curSltp + 1 := rfl
@[simp] theorem SrContext.committed_curSshp (c : SrContext) (p : Params) (q : Word32) : (c.committed p q).curSshp = c.curSshp + 1 := rfl
@[simp] theorem SrContext.committed_slpc (c : SrContext) (p : Params) (q : Word32) : (c.committed p q).slpc = ringPush p.slpcDepth c.slpc (c.reconstructed q <<< 4) := rfl
@[simp] theorem SrContext.committed_sltp (c : SrContext) (p : Params) (q : Word32) : (c.committed p q).sltp = ringPush p.ringDepth c.sltp (c.lpcExcitation q <<< 6) := rfl
@[simp] theorem SrContext.committed_sshp (c : SrContext) (p : Params) (q : Word32) : (c.committed p q).sshp = ringPush p.ringDepth c.sshp (c.reconstructed q - c.lNar - c.lNlf) := rfl

/-! ### Reading a context back -/

theorem State.ctx_withCtx_same (s : State) (c : Nat) (x : SrContext) (h : c < s.sr.length) :
    (s.withCtx c x).ctx c = x := by
  simp [State.ctx, h]

theorem State.ctx_withCtx_other (s : State) (c d : Nat) (x : SrContext) (h : c ≠ d) :
    (s.withCtx c x).ctx d = s.ctx d := by
  simp [State.ctx, List.getD_eq_getElem?_getD, List.getElem?_set_ne h]

@[simp] theorem State.ctx_withResp (s : State) (w : Word64) (c : Nat) :
    (s.withResp w).ctx c = s.ctx c := rfl

@[simp] theorem State.ctx_withPort (s : State) (q : List HostEvent) (c : Nat) :
    (s.withPort q).ctx c = s.ctx c := rfl

@[simp] theorem State.bufByte_withResp (s : State) (w : Word64) (a : Nat) :
    (s.withResp w).bufByte a = s.bufByte a := rfl

@[simp] theorem State.bufByte_withPort (s : State) (q : List HostEvent) (a : Nat) :
    (s.withPort q).bufByte a = s.bufByte a := rfl

@[simp] theorem State.bufByte_withCtx (s : State) (c : Nat) (x : SrContext) (a : Nat) :
    (s.withCtx c x).bufByte a = s.bufByte a := rfl

end Sys2Proof.Machine
end

