-- ==== Sys2Proof/Laws/Memory.lean ====
section
/-!
SUPPORT. The laws of `BUF` as a list of written cells: a read after a write, the canonical form kept by
every operation that writes, and which addresses an operation can list.
-/
namespace Sys2Proof.Machine

@[simp] theorem Memory.lookup_write_same (addr : Nat) (byte : Byte) (buf : Memory) :
    Memory.lookup addr (Memory.write addr byte buf) = some byte := by
  induction buf with
  | nil => simp [Memory.write, Memory.lookup]
  | cons c rest ih =>
    obtain ⟨k, v⟩ := c
    by_cases hk : k = addr
    · simp [Memory.write, Memory.lookup, hk]
    · by_cases hlt : addr < k
      · simp [Memory.write, Memory.lookup, hk, hlt]
      · simp [Memory.write, Memory.lookup, hk, hlt, ih]

theorem Memory.lookup_write_other (addr other : Nat) (byte : Byte) (buf : Memory) (h : other ≠ addr) :
    Memory.lookup other (Memory.write addr byte buf) = Memory.lookup other buf := by
  have h' : addr ≠ other := Ne.symm h
  induction buf with
  | nil => simp [Memory.write, Memory.lookup, h']
  | cons c rest ih =>
    obtain ⟨k, v⟩ := c
    by_cases hk : k = addr
    · simp [Memory.write, Memory.lookup, hk, h']
    · by_cases hlt : addr < k
      · simp [Memory.write, Memory.lookup, hk, hlt, h']
      · simp [Memory.write, Memory.lookup, hk, hlt, ih]

@[simp] theorem Memory.read_write_same (epoch addr : Nat) (byte : Byte) (buf : Memory) :
    Memory.read epoch (Memory.write addr byte buf) addr = byte := by
  simp [Memory.read]

theorem Memory.read_write_other (epoch addr other : Nat) (byte : Byte) (buf : Memory) (h : other ≠ addr) :
    Memory.read epoch (Memory.write addr byte buf) other = Memory.read epoch buf other := by
  simp [Memory.read, Memory.lookup_write_other addr other byte buf h]

/-- A written cell reads as it was written, whatever the epoch. -/
theorem Memory.read_of_lookup (epoch addr : Nat) (byte : Byte) (buf : Memory)
    (h : Memory.lookup addr buf = some byte) : Memory.read epoch buf addr = byte := by
  simp [Memory.read, h]

/-- A write lists its own address and the old ones, nothing else. -/
theorem Memory.mem_write (addr : Nat) (byte : Byte) (buf : Memory) (c : Host.Cell)
    (h : c ∈ Memory.write addr byte buf) : c = (addr, byte) ∨ c ∈ buf := by
  induction buf with
  | nil => simpa [Memory.write] using h
  | cons d rest ih =>
    obtain ⟨k, v⟩ := d
    by_cases hk : k = addr
    · simp only [Memory.write, hk, if_true, List.mem_cons] at h
      rcases h with h | h
      · exact .inl h
      · exact .inr (List.mem_cons_of_mem _ h)
    · by_cases hlt : addr < k
      · simp only [Memory.write, hk, hlt, if_true, if_false, List.mem_cons] at h
        rcases h with h | h | h
        · exact .inl h
        · exact .inr (by simp [h])
        · exact .inr (List.mem_cons_of_mem _ h)
      · simp only [Memory.write, hk, hlt, if_false, List.mem_cons] at h
        rcases h with h | h
        · exact .inr (by simp [h])
        · exact (ih h).imp id (List.mem_cons_of_mem _)

theorem Memory.wf_tail (c : Host.Cell) (rest : Memory) (h : Memory.wf (c :: rest) = true) :
    Memory.wf rest = true := by
  cases rest with
  | nil => rfl
  | cons d rest => simp [Memory.wf] at h; exact h.2

/-- The head of a canonical list is below everything after it. -/
theorem Memory.wf_head_lt (c : Host.Cell) (rest : Memory) (h : Memory.wf (c :: rest) = true) :
    ∀ d ∈ rest, c.1 < d.1 := by
  induction rest generalizing c with
  | nil => simp
  | cons e rest ih =>
    simp [Memory.wf] at h
    intro d hd
    rcases List.mem_cons.mp hd with rfl | hd
    · exact h.1
    · exact Nat.lt_trans h.1 (ih e h.2 d hd)

theorem Memory.wf_cons (c : Host.Cell) (rest : Memory) (hr : Memory.wf rest = true)
    (h : ∀ d ∈ rest, c.1 < d.1) : Memory.wf (c :: rest) = true := by
  cases rest with
  | nil => rfl
  | cons d rest => simp [Memory.wf, hr, h d (by simp)]

/-- Every write keeps the canonical form. -/
theorem Memory.wf_write (addr : Nat) (byte : Byte) (buf : Memory) (h : Memory.wf buf = true) :
    Memory.wf (Memory.write addr byte buf) = true := by
  induction buf with
  | nil => rfl
  | cons c rest ih =>
    obtain ⟨k, v⟩ := c
    have htail := Memory.wf_tail _ _ h
    have hhead := Memory.wf_head_lt _ _ h
    by_cases hk : k = addr
    · subst hk
      simp only [Memory.write, if_true]
      exact Memory.wf_cons _ _ htail hhead
    · by_cases hlt : addr < k
      · simp only [Memory.write, hk, hlt, if_true, if_false]
        refine Memory.wf_cons _ _ h fun d hd => ?_
        rcases List.mem_cons.mp hd with rfl | hd
        · exact hlt
        · exact Nat.lt_trans hlt (hhead d hd)
      · simp only [Memory.write, hk, hlt, if_false]
        refine Memory.wf_cons _ _ (ih htail) fun d hd => ?_
        rcases Memory.mem_write _ _ _ _ hd with rfl | hd
        · have hk' : k ≠ addr := hk
          show k < addr
          omega
        · exact hhead d hd

theorem carryWalk_wf (epoch : Nat) (j : Nat) (buf : Memory) (h : Memory.wf buf = true) :
    Memory.wf (carryWalk epoch j buf) = true := by
  induction j generalizing buf with
  | zero => exact h
  | succ j ih =>
    simp only [carryWalk]
    split
    · exact ih _ (Memory.wf_write _ _ _ h)
    · exact Memory.wf_write _ _ _ h

theorem bufAfterCarry_wf (s : State) (carry : Bool) (h : Memory.wf s.buf = true) :
    Memory.wf (s.bufAfterCarry carry) = true := by
  unfold State.bufAfterCarry
  split
  · exact carryWalk_wf _ _ _ h
  · exact h

theorem emitBytes_wf (n : Nat) (bn : Word32) (ix : Nat) (buf : Memory) (h : Memory.wf buf = true) :
    Memory.wf (emitBytes n bn ix buf).2 = true := by
  induction n generalizing bn ix buf with
  | zero => exact h
  | succ n ih => exact ih _ _ _ (Memory.wf_write _ _ _ h)

theorem storeRounded_wf (b24 : Word32) (b ix : Nat) (buf : Memory) (h : Memory.wf buf = true) :
    Memory.wf (storeRounded b24 b ix buf) = true := by
  unfold storeRounded
  split
  · exact Memory.wf_write _ _ _ (Memory.wf_write _ _ _ h)
  · exact Memory.wf_write _ _ _ h

theorem padLast_wf (epoch : Nat) (bits : Word32) (last : Nat) (buf : Memory)
    (h : Memory.wf buf = true) : Memory.wf (padLast epoch bits last buf) = true := by
  unfold padLast
  split
  · exact h
  · exact Memory.wf_write _ _ _ h

/-- The memory after reset is in canonical form. -/
theorem reset_buf_wf : Memory.wf State.reset.buf = true := rfl

/-! ### Where the coder's walks write -/

/-- The carry walk from `j` changes no byte at or above `j`. -/
theorem carryWalk_read_ge (epoch e : Nat) (j : Nat) (buf : Memory) (addr : Nat) (h : j ≤ addr) :
    Memory.read e (carryWalk epoch j buf) addr = Memory.read e buf addr := by
  induction j generalizing buf with
  | zero => rfl
  | succ j ih =>
    simp only [carryWalk]
    split
    · rw [ih _ (by omega), Memory.read_write_other _ _ _ _ _ (by omega)]
    · rw [Memory.read_write_other _ _ _ _ _ (by omega)]

/-- Emission at `ix` changes no byte outside `ix .. ix + n - 1`. -/
theorem emitBytes_read_outside (e n : Nat) (bn : Word32) (ix : Nat) (buf : Memory) (addr : Nat)
    (h : addr < ix ∨ ix + n ≤ addr) :
    Memory.read e (emitBytes n bn ix buf).2 addr = Memory.read e buf addr := by
  induction n generalizing bn ix buf with
  | zero => rfl
  | succ n ih =>
    simp only [emitBytes]
    rw [ih _ _ _ (by omega), Memory.read_write_other _ _ _ _ _ (by omega)]

end Sys2Proof.Machine
end

