-- ==== Sys2Proof/Laws/Ops.lean ====
section
/-!
SUPPORT. For each shared operation, once, all that it can answer; later proofs cite these instead of
unfolding the operation.
-/
namespace Sys2Proof.Machine

theorem respond_next (st : Status) (code : BitVec 8) (r1 : BitVec 20) (r0 : Word32) (s : State) :
    respond st code r1 r0 s = .next (s.withResp (respWord st code r1 r0)) := rfl

theorem respondOk_next (r0 : Word32) (s : State) :
    respondOk r0 s = .next (s.withResp (respWord .ok 0 0 r0)) := rfl

/-- An RC error sets `ERR` and `ERRCODE`, answers with the code, and leaves the rest. -/
theorem raiseRcError_next (e : RcError) (s : State) :
    raiseRcError e s = .next ((s.withErr e).withResp (respWord .rcError (e.code.setWidth 8) 0 0)) := rfl

theorem refuseErr_next (s : State) :
    refuseErr s = .next (s.withResp (respWord .rcError (s.errCode.setWidth 8) 0 0)) := rfl

/-- The first usage fault halts the block and is recorded. -/
theorem raiseUsageFault_running (word : Word64) (f : UsageFault) (s : State) (h : s.halt = false) :
    raiseUsageFault word f s =
      .next ((s.withFault f word).withResp (respWord .fault (f.code.setWidth 8) 0 0)) := by
  simp [raiseUsageFault, respond, h]

/-- A usage fault of a halted block is answered and not recorded. -/
theorem raiseUsageFault_halted (word : Word64) (f : UsageFault) (s : State) (h : s.halt = true) :
    raiseUsageFault word f s = .next (s.withResp (respWord .fault (f.code.setWidth 8) 0 0)) := by
  simp [raiseUsageFault, respond, h]

/-- A usage fault always answers a next state. -/
theorem raiseUsageFault_total (word : Word64) (f : UsageFault) (s : State) :
    ∃ t, raiseUsageFault word f s = .next t := ⟨_, rfl⟩

/-- A context command is one of three things: refused because the block is halted, refused because the
context does not exist, or its own effect on that context. -/
theorem onContext_cases (word : Word64) (c : Nat) (s : State) (k : SrContext → Out) :
    (s.halt = true ∧ onContext word c s k = raiseUsageFault word .halted s) ∨
    (s.halt = false ∧ s.params.nCtx ≤ c ∧ onContext word c s k = raiseUsageFault word .ctx s) ∨
    (s.halt = false ∧ c < s.params.nCtx ∧ onContext word c s k = k (s.ctx c)) := by
  cases hh : s.halt
  · by_cases hc : s.params.nCtx ≤ c
    · exact .inr (.inl ⟨rfl, hc, by simp [onContext, hh, hc]⟩)
    · exact .inr (.inr ⟨rfl, by omega, by simp [onContext, hh, hc]⟩)
  · exact .inl ⟨rfl, by simp [onContext, hh]⟩

theorem onContext_runs (word : Word64) (c : Nat) (s : State) (k : SrContext → Out)
    (hh : s.halt = false) (hc : c < s.params.nCtx) : onContext word c s k = k (s.ctx c) := by
  simp [onContext, hh, Nat.not_le.mpr hc]

/-- A gated RC command is one of four things: refused because the block is halted, refused because of
the mode, refused because of the sticky error, or its own effect. -/
theorem inMode_cases (word : Word64) (m : RcMode) (s : State) (k : Out) :
    (s.halt = true ∧ inMode word m s k = raiseUsageFault word .halted s) ∨
    (s.halt = false ∧ s.mode ≠ m ∧ inMode word m s k = raiseUsageFault word .mode s) ∨
    (s.halt = false ∧ s.mode = m ∧ s.err = true ∧ inMode word m s k = refuseErr s) ∨
    (s.halt = false ∧ s.mode = m ∧ s.err = false ∧ inMode word m s k = k) := by
  cases hh : s.halt
  · by_cases hm : s.mode = m
    · cases he : s.err
      · exact .inr (.inr (.inr ⟨rfl, hm, rfl, by simp [inMode, hh, hm, he]⟩))
      · exact .inr (.inr (.inl ⟨rfl, hm, rfl, by simp [inMode, hh, hm, he]⟩))
    · exact .inr (.inl ⟨rfl, hm, by simp [inMode, hh, hm]⟩)
  · exact .inl ⟨rfl, by simp [inMode, hh]⟩

theorem inMode_runs (word : Word64) (m : RcMode) (s : State) (k : Out)
    (hh : s.halt = false) (hm : s.mode = m) (he : s.err = false) : inMode word m s k = k := by
  simp [inMode, hh, hm, he]

/-! ### Rings -/

/-- A push keeps the depth of a ring that is full. -/
theorem ringPush_length (depth : Nat) (ring : List Word32) (v : Word32) (h : ring.length = depth) :
    (ringPush depth ring v).length = depth := by
  simp [ringPush, h]

@[simp] theorem ringPoke_length (ring : List Word32) (k : Nat) (v : Word32) :
    (ringPoke ring k v).length = ring.length := by
  simp [ringPoke]

/-! ### Searching a table -/

/-- What the search for the greatest index finds. -/
theorem greatestUpTo_some (f : Nat → Bool) (n i : Nat) (h : greatestUpTo f n = some i) :
    i ≤ n ∧ f i = true ∧ ∀ j, i < j → j ≤ n → f j = false := by
  induction n with
  | zero =>
    simp only [greatestUpTo] at h
    split at h
    · obtain rfl := Option.some.inj h
      exact ⟨Nat.le_refl _, by assumption, fun j h1 h2 => by omega⟩
    · cases h
  | succ n ih =>
    simp only [greatestUpTo] at h
    split at h
    · obtain rfl := Option.some.inj h
      exact ⟨Nat.le_refl _, by assumption, fun j h1 h2 => by omega⟩
    · obtain ⟨h1, h2, h3⟩ := ih h
      refine ⟨by omega, h2, fun j hj hn => ?_⟩
      by_cases hj' : j = n + 1
      · subst hj'; simpa using ‹¬f (n + 1) = true›
      · exact h3 j hj (by omega)

/-- The search finds nothing exactly when no index up to `n` satisfies the test. -/
theorem greatestUpTo_none (f : Nat → Bool) (n : Nat) (h : greatestUpTo f n = none) :
    ∀ j, j ≤ n → f j = false := by
  induction n with
  | zero =>
    intro j hj
    obtain rfl : j = 0 := by omega
    simp only [greatestUpTo] at h
    split at h
    · cases h
    · simpa using ‹¬f 0 = true›
  | succ n ih =>
    simp only [greatestUpTo] at h
    split at h
    · cases h
    · intro j hj
      by_cases hj' : j = n + 1
      · subst hj'; simpa using ‹¬f (n + 1) = true›
      · exact ih h j (by omega)

/-! ### The fields of a command word -/

/-- Concatenation as arithmetic. -/
theorem append_toNat {m n : Nat} (x : BitVec m) (y : BitVec n) :
    (x ++ y).toNat = x.toNat * 2 ^ n + y.toNat := by
  rw [BitVec.toNat_append, ← Nat.shiftLeft_add_eq_or_of_lt y.isLt, Nat.shiftLeft_eq]

/-- Taking the fields of a word built from fields gives them back. -/
theorem splitFields_joinFields (f : CmdFields) : splitFields (joinFields f) = f := by
  obtain ⟨opc, ctx, rsv, a, w⟩ := f
  have h8 := opc.isLt
  have h4 := ctx.isLt
  have h4' := rsv.isLt
  have h16 := a.isLt
  have h32 := w.isLt
  simp only [splitFields, joinFields, CmdFields.mk.injEq]
  refine ⟨?_, ?_, ?_, ?_, ?_⟩ <;> apply BitVec.eq_of_toNat_eq <;>
    simp only [BitVec.extractLsb'_toNat, append_toNat, Nat.shiftRight_eq_div_pow] <;> omega

/-- Every word is built from its fields. -/
theorem joinFields_splitFields (w : Word64) : joinFields (splitFields w) = w := by
  have hw := w.isLt
  apply BitVec.eq_of_toNat_eq
  simp only [splitFields, joinFields, BitVec.extractLsb'_toNat, append_toNat,
    Nat.shiftRight_eq_div_pow]
  omega

end Sys2Proof.Machine
end

