-- ==== Sys2Proof/Laws/PerInstr.lean ====
section
/-!
SUPPORT. Statements made about every command, one lemma per constructor of `Instr`.
-/
namespace Sys2Proof.Laws

/-- The encoding of a command has an assigned opcode (30_encoding.md R84, R85) and a zero `RSV` field
(R82). -/
def EncodesLegally.Statement (i : Instr) : Prop :=
  (splitFields (encode i)).rsv = 0 ∧
    (splitFields (encode i)).opc.toNat ∈
      [0x00, 0x01, 0x10, 0x11, 0x12, 0x13, 0x14, 0x15, 0x16, 0x18, 0x19, 0x1A,
       0x20, 0x21, 0x22, 0x23, 0x24, 0x25, 0x28, 0x29]

theorem EncodesLegally.of_fields (i : Instr) (h1 : (encodeFields i).rsv = 0)
    (h2 : (encodeFields i).opc.toNat ∈
      [0x00, 0x01, 0x10, 0x11, 0x12, 0x13, 0x14, 0x15, 0x16, 0x18, 0x19, 0x1A,
       0x20, 0x21, 0x22, 0x23, 0x24, 0x25, 0x28, 0x29]) : EncodesLegally.Statement i := by
  unfold EncodesLegally.Statement encode
  rw [Machine.splitFields_joinFields]
  exact ⟨h1, h2⟩

theorem EncodesLegally.nop : EncodesLegally.Statement .nop :=
  EncodesLegally.of_fields _ rfl (by simp [encodeFields])

theorem EncodesLegally.csrRd (csr : Word16) : EncodesLegally.Statement (.csrRd csr) :=
  EncodesLegally.of_fields _ rfl (by simp [encodeFields])

theorem EncodesLegally.rcEncInit (len : Word16) : EncodesLegally.Statement (.rcEncInit len) :=
  EncodesLegally.of_fields _ rfl (by simp [encodeFields])

theorem EncodesLegally.rcDecInit (len : Word16) : EncodesLegally.Statement (.rcDecInit len) :=
  EncodesLegally.of_fields _ rfl (by simp [encodeFields])

theorem EncodesLegally.rcEncode (base : Word16) (nsym : Word16) (sym : Word16) : EncodesLegally.Statement (.rcEncode base nsym sym) :=
  EncodesLegally.of_fields _ rfl (by simp [encodeFields])

theorem EncodesLegally.rcDecode (base : Word16) (nsym : Word16) (hint : Word16) : EncodesLegally.Statement (.rcDecode base nsym hint) :=
  EncodesLegally.of_fields _ rfl (by simp [encodeFields])

theorem EncodesLegally.rcGetLength : EncodesLegally.Statement .rcGetLength :=
  EncodesLegally.of_fields _ rfl (by simp [encodeFields])

theorem EncodesLegally.rcEncWrapup : EncodesLegally.Statement .rcEncWrapup :=
  EncodesLegally.of_fields _ rfl (by simp [encodeFields])

theorem EncodesLegally.rcCheck : EncodesLegally.Statement .rcCheck :=
  EncodesLegally.of_fields _ rfl (by simp [encodeFields])

theorem EncodesLegally.bufRd (addr : Word16) : EncodesLegally.Statement (.bufRd addr) :=
  EncodesLegally.of_fields _ rfl (by simp [encodeFields])

theorem EncodesLegally.bufWr (addr : Word16) (byte : Byte) : EncodesLegally.Statement (.bufWr addr byte) :=
  EncodesLegally.of_fields _ rfl (by simp [encodeFields])

theorem EncodesLegally.cdfRd (index : Word16) : EncodesLegally.Statement (.cdfRd index) :=
  EncodesLegally.of_fields _ rfl (by simp [encodeFields])

theorem EncodesLegally.srClear (ctx : BitVec 4) : EncodesLegally.Statement (.srClear ctx) :=
  EncodesLegally.of_fields _ rfl (by simp [encodeFields])

theorem EncodesLegally.srCopy (dst : BitVec 4) (src : Word16) : EncodesLegally.Statement (.srCopy dst src) :=
  EncodesLegally.of_fields _ rfl (by simp [encodeFields])

theorem EncodesLegally.srRd (ctx : BitVec 4) (reg : Word16) : EncodesLegally.Statement (.srRd ctx reg) :=
  EncodesLegally.of_fields _ rfl (by simp [encodeFields])

theorem EncodesLegally.srWr (ctx : BitVec 4) (reg : Word16) (value : Word32) : EncodesLegally.Statement (.srWr ctx reg value) :=
  EncodesLegally.of_fields _ rfl (by simp [encodeFields])

theorem EncodesLegally.srPeek (ctx : BitVec 4) (ring : BitVec 2) (k : BitVec 14) : EncodesLegally.Statement (.srPeek ctx ring k) :=
  EncodesLegally.of_fields _ rfl (by simp [encodeFields])

theorem EncodesLegally.srPoke (ctx : BitVec 4) (ring : BitVec 2) (k : BitVec 14) (value : Word32) : EncodesLegally.Statement (.srPoke ctx ring k value) :=
  EncodesLegally.of_fields _ rfl (by simp [encodeFields])

theorem EncodesLegally.srPredict (ctx : BitVec 4) (x : Word32) : EncodesLegally.Statement (.srPredict ctx x) :=
  EncodesLegally.of_fields _ rfl (by simp [encodeFields])

theorem EncodesLegally.srCommit (ctx : BitVec 4) (q : Word32) : EncodesLegally.Statement (.srCommit ctx q) :=
  EncodesLegally.of_fields _ rfl (by simp [encodeFields])

end Sys2Proof.Laws
end

