-- ==== Sys2Proof/Laws/RangeCoder.lean ====
section
/-!
SUPPORT. What the range coder's shared operations can answer, said once each.
-/
namespace Sys2Proof.Machine

/-- The three rows of `renorm` (R106), on integers. -/
theorem renorm_cases (prod : Word32) :
    (2 ^ 24 ≤ prod.toNat ∧ (renorm prod).1 = 0 ∧ (renorm prod).2.toNat = prod.toNat / 2 ^ 16) ∨
    (2 ^ 16 ≤ prod.toNat ∧ prod.toNat < 2 ^ 24 ∧ (renorm prod).1 = 1 ∧
      (renorm prod).2.toNat = prod.toNat / 2 ^ 8) ∨
    (prod.toNat < 2 ^ 16 ∧ (renorm prod).1 = 2 ∧ (renorm prod).2.toNat = prod.toNat) := by
  have hlt := prod.isLt
  by_cases h1 : 2 ^ 24 ≤ prod.toNat
  · refine .inl ⟨h1, by rw [renorm, if_pos h1], ?_⟩
    simp only [renorm, h1, if_true, BitVec.toNat_setWidth, BitVec.toNat_ushiftRight,
      Nat.shiftRight_eq_div_pow]
    omega
  · by_cases h2 : 2 ^ 16 ≤ prod.toNat
    · refine .inr (.inl ⟨h2, by omega, by rw [renorm, if_neg h1, if_pos h2], ?_⟩)
      simp only [renorm, h1, h2, if_true, if_false, BitVec.toNat_setWidth, BitVec.toNat_ushiftRight,
        Nat.shiftRight_eq_div_pow]
      omega
    · refine .inr (.inr ⟨by omega, by rw [renorm, if_neg h1, if_neg h2], ?_⟩)
      simp only [renorm, h1, h2, if_false, BitVec.toNat_setWidth]
      omega

/-- The products of the coder are exact: they never reach `2^32` (R105, R111). -/
theorem rangeTimes_lt (s : State) (c : Word16) : s.rangeTimes c < 2 ^ 32 := by
  have h1 := s.range.isLt
  have h2 := c.isLt
  unfold State.rangeTimes
  calc s.range.toNat * c.toNat ≤ (2 ^ 16 - 1) * (2 ^ 16 - 1) := Nat.mul_le_mul (by omega) (by omega)
    _ < 2 ^ 32 := by norm_num

theorem widthProduct_toNat (s : State) (low high : Word16) :
    (s.widthProduct low high).toNat = s.range.toNat * (high.toNat - low.toNat) := by
  have h1 := s.range.isLt
  have h2 := high.isLt
  have h : s.range.toNat * (high.toNat - low.toNat) < 2 ^ 32 :=
    calc s.range.toNat * (high.toNat - low.toNat) ≤ (2 ^ 16 - 1) * (2 ^ 16 - 1) :=
          Nat.mul_le_mul (by omega) (by omega)
      _ < 2 ^ 32 := by norm_num
  rw [State.widthProduct, BitVec.toNat_ofNat, Nat.mod_eq_of_lt h]

/-- RC_ENCODE after its operand checks is one of three things (R105). -/
theorem encodeInterval_cases (word : Word64) (low high : Word16) (s : State) :
    let bn := s.base + BitVec.ofNat 32 (s.rangeTimes low)
    let carry := decide (bn.toNat < s.base.toNat)
    let r := renorm (s.widthProduct low high)
    let e := emitBytes r.1 bn s.ix.toNat (s.bufAfterCarry carry)
    (s.len.toNat < s.ix.toNat + r.1 ∧
      encodeInterval word low high s = raiseRcError .writeBeyondBuffer s) ∨
    (s.ix.toNat + r.1 ≤ s.len.toNat ∧ carry = true ∧ s.carryBlocked = true ∧
      encodeInterval word low high s = raiseUsageFault word .carry s) ∨
    (s.ix.toNat + r.1 ≤ s.len.toNat ∧ (carry = true → s.carryBlocked = false) ∧
      encodeInterval word low high s =
        respondOk 0 ((s.withBuf e.2).withCoder e.1 r.2 (BitVec.ofNat 16 (s.ix.toNat + r.1)))) := by
  intro bn carry r e
  by_cases h1 : s.len.toNat < s.ix.toNat + r.1
  · exact .inl ⟨h1, by simp only [encodeInterval]; exact if_pos h1⟩
  · by_cases h2 : (carry && s.carryBlocked) = true
    · refine .inr (.inl ⟨by omega, ?_, ?_, ?_⟩)
      · simp only [Bool.and_eq_true] at h2; exact h2.1
      · simp only [Bool.and_eq_true] at h2; exact h2.2
      · simp only [encodeInterval]; rw [if_neg h1]; exact if_pos h2
    · refine .inr (.inr ⟨by omega, ?_, ?_⟩)
      · intro hc; simp only [hc, Bool.true_and] at h2; simpa using h2
      · simp only [encodeInterval]; rw [if_neg h1]; exact if_neg h2

/-- RC_DECODE with its symbol found is one of two things (R113). -/
theorem decodeSymbol_cases (base sym : Nat) (s : State) :
    let low := s.params.cdf (base + sym)
    let high := s.params.cdf (base + sym + 1)
    let bn := s.base - BitVec.ofNat 32 (s.rangeTimes low)
    let r := renorm (s.widthProduct low high)
    (s.len.toNat < s.ix.toNat + r.1 ∧ decodeSymbol base sym s = raiseRcError .truncated s) ∨
    (s.ix.toNat + r.1 ≤ s.len.toNat ∧
      decodeSymbol base sym s =
        respondOk (BitVec.ofNat 32 sym)
          (s.withCoder (pullBytes s r.1 bn s.ix.toNat) r.2 (BitVec.ofNat 16 (s.ix.toNat + r.1)))) := by
  intro low high bn r
  by_cases h1 : s.len.toNat < s.ix.toNat + r.1
  · exact .inl ⟨h1, by simp only [decodeSymbol]; exact if_pos h1⟩
  · exact .inr ⟨by omega, by simp only [decodeSymbol]; exact if_neg h1⟩

/-- RC_ENC_WRAPUP after its checks is one of three things (R118). -/
theorem wrapUp_cases (word : Word64) (s : State) :
    let b := s.bitsToStore
    let nw := if b ≤ 8 then 1 else 2
    let b24 := roundedBase s.base b
    let carry := b24.getLsbD 24
    let stored := storeRounded b24 b s.ix.toNat (s.bufAfterCarry carry)
    let padded := padLast s.epoch s.rcBits (s.ix.toNat + nw - 1) stored
    (s.len.toNat < s.ix.toNat + nw ∧ wrapUp word s = raiseRcError .writeBeyondBuffer s) ∨
    (s.ix.toNat + nw ≤ s.len.toNat ∧ carry = true ∧ s.carryBlocked = true ∧
      wrapUp word s = raiseUsageFault word .carry s) ∨
    (s.ix.toNat + nw ≤ s.len.toNat ∧ (carry = true → s.carryBlocked = false) ∧
      wrapUp word s = respond .ok 0 (s.rcBytes.setWidth 20) s.rcBits
        ((s.withBuf padded).withFinished (BitVec.ofNat 16 (s.ix.toNat + nw)))) := by
  intro b nw b24 carry stored padded
  by_cases h1 : s.len.toNat < s.ix.toNat + nw
  · exact .inl ⟨h1, by simp only [wrapUp]; exact if_pos h1⟩
  · by_cases h2 : (carry && s.carryBlocked) = true
    · refine .inr (.inl ⟨by omega, ?_, ?_, ?_⟩)
      · simp only [Bool.and_eq_true] at h2; exact h2.1
      · simp only [Bool.and_eq_true] at h2; exact h2.2
      · simp only [wrapUp]; rw [if_neg h1]; exact if_pos h2
    · refine .inr (.inr ⟨by omega, ?_, ?_⟩)
      · intro hc; simp only [hc, Bool.true_and] at h2; simpa using h2
      · simp only [wrapUp]; rw [if_neg h1]; exact if_neg h2

/-- The symbol search answers a symbol only inside its sub-interval, and the entry after it lies above
the coded value (R111). -/
theorem findSymbol_some (s : State) (base nsym sym : Nat) (h : s.findSymbol base nsym = some sym) :
    sym < nsym ∧ s.rangeTimes (s.params.cdf (base + sym)) ≤ s.base.toNat ∧
      ∀ j, sym < j → j ≤ nsym → s.base.toNat < s.rangeTimes (s.params.cdf (base + j)) := by
  unfold State.findSymbol at h
  split at h
  · cases h
  · rename_i i hi
    split at h
    · cases h
    · obtain rfl := Option.some.inj h
      obtain ⟨h1, h2, h3⟩ := greatestUpTo_some _ _ _ hi
      refine ⟨by omega, by simpa using h2, fun j hj hn => ?_⟩
      simpa using h3 j hj hn

end Sys2Proof.Machine
end

