-- ==== Sys2Proof/Laws/Synthesis.lean ====
section
/-!
SUPPORT. The small laws of the synthesis recursion's pieces: sums, rings under a push and a poke, the
masks, and which lists of a context keep their lengths.
-/
namespace Sys2Proof.Machine

@[simp] theorem sum32_zero (f : Nat → Word32) : sum32 0 f = 0 := rfl

@[simp] theorem sum32_succ (n : Nat) (f : Nat → Word32) : sum32 (n + 1) f = sum32 n f + f n := rfl

/-- A wrapping sum depends only on the terms it sums. -/
theorem sum32_congr (n : Nat) (f g : Nat → Word32) (h : ∀ j, j < n → f j = g j) :
    sum32 n f = sum32 n g := by
  induction n with
  | zero => rfl
  | succ n ih => rw [sum32_succ, sum32_succ, ih fun j hj => h j (by omega), h n (by omega)]

/-- `push(v)` makes `v` the new `peek(1)`, whatever the depth, as long as there is one cell. -/
theorem ringPush_peek_one (depth : Nat) (ring : List Word32) (v : Word32) (h : 0 < depth) :
    ringPeek (ringPush depth ring v) 1 = v := by
  obtain ⟨d, rfl⟩ : ∃ d, depth = d + 1 := ⟨depth - 1, by omega⟩
  simp [ringPush, ringPeek]

/-- `push(v)` moves every other value one position older. -/
theorem ringPush_peek_succ (depth : Nat) (ring : List Word32) (v : Word32) (k : Nat)
    (h1 : 1 ≤ k) (h2 : k < depth) :
    ringPeek (ringPush depth ring v) (k + 1) = ringPeek ring k := by
  obtain ⟨j, rfl⟩ : ∃ j, k = j + 1 := ⟨k - 1, by omega⟩
  simp [ringPush, ringPeek, List.getD_eq_getElem?_getD, h2]

theorem ringPoke_peek_same (ring : List Word32) (k : Nat) (v : Word32)
    (h1 : 1 ≤ k) (h2 : k ≤ ring.length) : ringPeek (ringPoke ring k v) k = v := by
  have h : k - 1 < ring.length := by omega
  simp [ringPeek, ringPoke, h]

theorem ringPoke_peek_other (ring : List Word32) (k j : Nat) (v : Word32)
    (h1 : 1 ≤ k) (h2 : 1 ≤ j) (h : j ≠ k) : ringPeek (ringPoke ring k v) j = ringPeek ring j := by
  have h : k - 1 ≠ j - 1 := by omega
  simp [ringPeek, ringPoke, List.getD_eq_getElem?_getD, List.getElem?_set_ne h]

/-- The dither mask is one of the two masks `negate_if` is defined for. -/
theorem ditherMask_cases (seed : Word32) : ditherMask seed = 0 ∨ ditherMask seed = 0xFFFFFFFF := by
  unfold ditherMask
  split
  · exact .inr rfl
  · exact .inl rfl

theorem negateIf_zero (v : Word32) : negateIf 0 v = v := by
  simp [negateIf]

theorem negateIf_ones (v : Word32) : negateIf 0xFFFFFFFF v = -v := by
  have h : (0xFFFFFFFF : Word32) = BitVec.allOnes 32 := by decide
  have h' : -BitVec.allOnes 32 = 1#32 := by decide
  rw [negateIf, h, BitVec.xor_allOnes, BitVec.neg_eq_not_add, BitVec.sub_eq_add_neg, h']

end Sys2Proof.Machine
end

