-- ==== Sys2Proof/WellFormed.lean ====
section
/-!
DEFINITION. The one condition on a command that its syntax does not already carry: 30_encoding.md R88
calls a command word illegal for an unassigned opcode, a non-zero unused field (both settled by the
decoder), or a context index that the instance does not have (settled here, since it depends on
`N_CTX`). Out-of-range operands of other kinds are "not encoding errors" (R88). The machine does not
need this check to run: an ill-formed command takes the usage fault UF_CTX.
-/
namespace Sys2Proof

/-- Every context index the command names exists in the instance (R88, third row). -/
def Instr.wellFormed (p : Params) : Instr → Bool
  | .nop => true
  | .csrRd _ => true
  | .rcEncInit _ => true
  | .rcDecInit _ => true
  | .rcEncode _ _ _ => true
  | .rcDecode _ _ _ => true
  | .rcGetLength => true
  | .rcEncWrapup => true
  | .rcCheck => true
  | .bufRd _ => true
  | .bufWr _ _ => true
  | .cdfRd _ => true
  | .srClear ctx => decide (ctx.toNat < p.nCtx)
  | .srCopy dst src => decide (dst.toNat < p.nCtx) && decide (src.toNat < p.nCtx)
  | .srRd ctx _ => decide (ctx.toNat < p.nCtx)
  | .srWr ctx _ _ => decide (ctx.toNat < p.nCtx)
  | .srPeek ctx _ _ => decide (ctx.toNat < p.nCtx)
  | .srPoke ctx _ _ _ => decide (ctx.toNat < p.nCtx)
  | .srPredict ctx _ => decide (ctx.toNat < p.nCtx)
  | .srCommit ctx _ => decide (ctx.toNat < p.nCtx)

end Sys2Proof
end

