-- ==== Sys2Proof/Tests/Slice0.lean ====
section
/-!
SUPPORT. The model's own tests. Expected values are worked examples of the rules named in the comments, or
computed by hand from the rules; every word is written out from 30_encoding.md. The theorems named
`witness_…` show, for each statement with hypotheses, concrete states and operands that meet them, clause by
clause and at the boundaries of the clauses.
-/
namespace Sys2Proof.Tests

open Sys2Proof.Machine Sys2Proof.Claims

/-! ## Helpers -/

/-- A small instance with the default orders and the test image. -/
def small : Params := { Params.default with bufBytes := 8, nCtx := 2, slpcDepth := 16, ringDepth := 9 }

/-- `small` right after reset. -/
def fresh : State := State.afterReset small 0 []

/-- A view of the next state of an outcome. -/
def view {α : Type} (f : State → α) : Out → Option α
  | .next t => some (f t)
  | .fault _ => none
  | .refused _ => none

/-- The cells of `BUF` from address 0 on. -/
def bytes (l : List Byte) : Memory := l.zipIdx.map fun c => (c.2, c.1)

/-- The first `n` bytes of `BUF`. -/
def payloadBytes (n : Nat) (s : State) : List Byte := (List.range n).map s.bufByte

/-- An RC session of `small` (`LEN` 8). -/
def session (mode : RcMode) (base : Word32) (range ix : Word16) (buf : List Byte) : State :=
  { fresh with mode := mode, base := base, range := range, ix := ix, len := 8, buf := bytes buf }

/-- `fresh` with context 0 replaced. -/
def withFirst (c : SrContext) : State := { fresh with sr := fresh.sr.set 0 c }

/-- A ring cell by position. -/
def placed (depth : Nat) (cells : List (Nat × Int)) : List Word32 :=
  (List.range depth).map fun k =>
    match cells.find? (fun e => e.1 == k + 1) with
    | some e => BitVec.ofInt 32 e.2
    | none => 0

/-- Taps from index 0 on. -/
def taps (n : Nat) (l : List Int) : List Word16 :=
  (List.range n).map fun k => BitVec.ofInt 16 (l.getD k 0)

/-- The context of the worked example that runs through 41_sr_commands.md R134 to R145. -/
def exampleContext : SrContext :=
  { SrContext.zero small with
    lpcOrd := 10
    shpOrd := 12
    voiced := true
    lag := 5
    a := taps 16 [8192, -4096, 2048, -1024]
    ar := taps 16 [4096, -2048, 1024, -512]
    b := taps 5 [1000, 3000, 8000, 3000, 1000]
    tilt := 2000
    lfar := 40000
    lf := 0x03E8FA24
    harm := 0x17700BB8
    slpc := placed 16 [(1, 200000), (2, 400000), (3, 600000), (4, 800000)]
    sltp := placed 9 [(3, 3000000), (4, -4000000), (5, 5000000), (6, -6000000), (7, 7000000)]
    sshp := placed 9 [(1, 3000), (4, 12000), (5, 15000), (6, -18000)] }

/-- The same context after SR_PREDICT with `x = 20000` (R139, R140). -/
def predictedContext : SrContext :=
  { exampleContext with
    seed := 0x3619636B
    lLpc := 6250
    lLtp := 305173
    lNar := 2782
    lNlf := 334
    lNltp := 70272
    lDither := 0
    lR := 2185
    pvalid := true }

/-! ## WellFormed refuses -/

theorem test_wellFormed_srClear : (Instr.srClear 4).wellFormed Params.default = false := by decide
theorem test_wellFormed_srCopy_dst : (Instr.srCopy 4 0).wellFormed Params.default = false := by decide
theorem test_wellFormed_srCopy_src : (Instr.srCopy 0 4).wellFormed Params.default = false := by decide
theorem test_wellFormed_srRd : (Instr.srRd 4 0).wellFormed Params.default = false := by decide
theorem test_wellFormed_srWr : (Instr.srWr 4 0 0).wellFormed Params.default = false := by decide
theorem test_wellFormed_srPeek : (Instr.srPeek 4 0 1).wellFormed Params.default = false := by decide
theorem test_wellFormed_srPoke : (Instr.srPoke 4 0 1 0).wellFormed Params.default = false := by decide
theorem test_wellFormed_srPredict : (Instr.srPredict 4 0).wellFormed Params.default = false := by decide
theorem test_wellFormed_srCommit : (Instr.srCommit 4 0).wellFormed Params.default = false := by decide
theorem test_wellFormed_last_context : (Instr.srCopy 3 3).wellFormed Params.default = true := by decide

/-- R8: the default column meets the constraints column; one byte less than four does not. -/
theorem test_params_valid :
    Params.default.valid = true ∧ small.valid = true ∧ { Params.default with bufBytes := 3 }.valid = false := by
  decide

/-! ## Decoding: one word for every command, from R80, R83, R84 -/

theorem test_decode_nop : decode 0x0000000000000000 = .ok .nop := by decide
theorem test_decode_csrRd : decode 0x0100000200000000 = .ok (.csrRd 2) := by decide
theorem test_decode_rcEncInit : decode 0x1000040000000000 = .ok (.rcEncInit 1024) := by decide
theorem test_decode_rcDecInit : decode 0x1100000500000000 = .ok (.rcDecInit 5) := by decide
theorem test_decode_rcEncode : decode 0x1200000300040002 = .ok (.rcEncode 3 4 2) := by decide
theorem test_decode_rcDecode : decode 0x130000030004BEEF = .ok (.rcDecode 3 4 0xBEEF) := by decide
theorem test_decode_rcGetLength : decode 0x1400000000000000 = .ok .rcGetLength := by decide
theorem test_decode_rcEncWrapup : decode 0x1500000000000000 = .ok .rcEncWrapup := by decide
theorem test_decode_rcCheck : decode 0x1600000000000000 = .ok .rcCheck := by decide
theorem test_decode_bufRd : decode 0x180003FF00000000 = .ok (.bufRd 1023) := by decide
theorem test_decode_bufWr : decode 0x1900000200000029 = .ok (.bufWr 2 0x29) := by decide
theorem test_decode_cdfRd : decode 0x1A00000400000000 = .ok (.cdfRd 4) := by decide
theorem test_decode_srClear : decode 0x2030000000000000 = .ok (.srClear 3) := by decide
theorem test_decode_srCopy : decode 0x2120000100000000 = .ok (.srCopy 2 1) := by decide
theorem test_decode_srRd : decode 0x2210005000000000 = .ok (.srRd 1 0x50) := by decide
theorem test_decode_srWr : decode 0x231000500000000A = .ok (.srWr 1 0x50 10) := by decide
theorem test_decode_srPeek : decode 0x2400400500000000 = .ok (.srPeek 0 1 5) := by decide
theorem test_decode_srPoke : decode 0x253083C0FFFFFFFF = .ok (.srPoke 3 2 960 0xFFFFFFFF) := by decide
theorem test_decode_srPredict : decode 0x28000000FFFFEC78 = .ok (.srPredict 0 0xFFFFEC78) := by decide
theorem test_decode_srCommit : decode 0x29000000FFFFFFC0 = .ok (.srCommit 0 0xFFFFFFC0) := by decide

/-- R88: unassigned opcodes next to assigned ones, and the all-ones word. -/
theorem test_decode_opcode :
    decode 0x0200000000000000 = .error .opcode ∧ decode 0x1700000000000000 = .error .opcode ∧
    decode 0x2A00000000000000 = .error .opcode ∧ decode 0xFFFFFFFFFFFFFFFF = .error .opcode := by decide

/-- R82: one bit in an unused field, `RSV` of a command that uses all else, `W[31:8]` of BUF_WR. -/
theorem test_decode_field :
    decode 0x0000000000000001 = .error .field ∧ decode 0x2301005000000000 = .error .field ∧
    decode 0x1900000200000100 = .error .field ∧ decode 0x1210000300040002 = .error .field := by decide

/-- The host's numbering: one 64-bit word, bit 0 the least significant (R11). -/
theorem test_decodeTableWord : decodeTableWord 64 0x1200000300040002 = some (.rcEncode 3 4 2) := by decide

/-- R93: the most significant byte first. -/
theorem test_wordBytes : wordBytes 0x2400400500000000 = [0x24, 0x00, 0x40, 0x05, 0, 0, 0, 0] := by decide

/-! ## Reset -/

theorem test_reset_memory_canonical : Memory.wf State.reset.buf = true := by decide

/-- R57 on the default instance: `MODE`, the RC registers, the contexts. -/
theorem test_reset_values :
    State.reset.mode = .idle ∧ State.reset.range = 0 ∧ State.reset.halt = false ∧ State.reset.sr.length = 4 := by
  decide

/-! ## System and buffer commands -/

/-- R170: accepted while halted. -/
theorem test_nop_halted :
    view (fun t => t.resp) (exec .nop { fresh with halt := true }) = some (some 0) := by decide

/-- R171: the identification word; `STATUS` with every field in its place (R41). -/
theorem test_csrRd :
    view (fun t => t.resp) (exec (.csrRd 0) fresh) = some (some 0x0000000052435352) ∧
    view (fun t => t.resp)
      (exec (.csrRd 2) { fresh with err := true, errCode := 4, halt := true, faultCode := 9, mode := .dec }) =
        some (some 0x000000000000094B) := by decide

/-- R171: `CSR_RD 0x05` responds FAULT, code 4, and halts the block. -/
theorem test_csrRd_unknown :
    view (fun t => (t.resp, t.halt, t.faultCode, t.faultInfo)) (exec (.csrRd 5) fresh) =
      some (some 0x2040000000000000, true, 4, 0x0100000500000000) := by decide

/-- R172: the last byte of the buffer, and the address after it. -/
theorem test_bufRd :
    view (fun t => t.resp) (exec (.bufRd 7) { fresh with buf := [(7, 0xA5)] }) = some (some 0xA5) ∧
    view (fun t => t.resp) (exec (.bufRd 8) fresh) = some (some 0x2040000000000000) := by decide

/-- R173: the byte is stored in order among the others; in `ENC` the mode is checked before the address. -/
theorem test_bufWr :
    view (fun t => t.buf) (exec (.bufWr 3 0x36) { fresh with buf := [(1, 9), (5, 7)] }) =
      some [(1, 9), (3, 0x36), (5, 7)] ∧
    view (fun t => t.resp) (exec (.bufWr 8 1) { fresh with mode := .enc }) =
      some (some 0x2050000000000000) := by decide

/-- R174: entry 4 of the test image is 16384; entry 32 does not exist. -/
theorem test_cdfRd :
    view (fun t => t.resp) (exec (.cdfRd 4) fresh) = some (some 16384) ∧
    view (fun t => t.resp) (exec (.cdfRd 32) fresh) = some (some 0x2040000000000000) := by decide

/-! ## Range coder -/

/-- R101: an init clears the sticky error. -/
theorem test_rcEncInit :
    view (fun t => (t.mode, t.base, t.range, t.ix, t.len, t.err))
      (exec (.rcEncInit 8) { session .dec 5 6 7 [] with err := true, errCode := 3 }) =
        some (.enc, 0, 0xFFFF, 0, 8, false) := by decide

/-- R101: a length beyond the buffer is the error LENGTH and leaves `LEN` 0. -/
theorem test_rcEncInit_length :
    view (fun t => (t.mode, t.len, t.err, t.errCode, t.resp)) (exec (.rcEncInit 9) fresh) =
      some (.enc, 0, true, 4, some 0x1040000000000000) := by decide

/-- R102: the example, and a payload shorter than the seed (the bytes beyond it are 0). -/
theorem test_rcDecInit :
    view (fun t => (t.base, t.range, t.ix, t.len, t.mode))
      (exec (.rcDecInit 5) { fresh with buf := bytes [0x36, 0xFC, 0x29, 0x77, 0xFF] }) =
        some (0x36FC2977, 0xFFFF, 0, 5, .dec) ∧
    view (fun t => t.base) (exec (.rcDecInit 1) { fresh with buf := bytes [0x36, 0xFC] }) =
      some 0x36000000 := by decide

/-- R105: the example. -/
theorem test_rcEncode :
    view (fun t => (t.base, t.range, t.ix, payloadBytes 1 t))
      (exec (.rcEncode 3 4 2) (session .enc 0x33FF0000 0x03FF 0 [])) =
        some (0xFE800000, 0xFFC0, 1, [0x35]) := by decide

/-- R107: `BUF[0..3] = 00 00 FF FF` and a carry give `00 01 00 00`; a carry with `IX = 0` is UF_CARRY. -/
theorem test_rcEncode_carry :
    view (payloadBytes 4) (exec (.rcEncode 3 4 3) (session .enc 0xFFFFFFFF 0xFFFF 4 [0, 0, 0xFF, 0xFF])) =
      some [0, 1, 0, 0] ∧
    view (fun t => t.resp) (exec (.rcEncode 3 4 3) (session .enc 0xFFFFFFFF 0xFFFF 0 [])) =
      some (some 0x20B0000000000000) := by decide

/-- R113: the example; R111: a value beyond the last sub-interval is the error CDF_OUT_OF_RANGE. -/
theorem test_rcDecode :
    view (fun t => (t.resp, t.base, t.range, t.ix))
      (exec (.rcDecode 3 4 77) (session .dec 0x02FD2977 0x03FF 0 [0x36, 0xFC, 0x29, 0x77, 0xFF])) =
        some (some 2, 0xFDA977FF, 0xFFC0, 1) ∧
    view (fun t => (t.resp, t.errCode)) (exec (.rcDecode 3 4 0) (session .dec 0xFFFFFFFF 0x03FF 0 [])) =
      some (some 0x1020000000000000, 2) := by decide

/-- R116: `IX = 3`, `RANGE = 0x0108` give 33 bits, 5 bytes; just after an init 2 bits, 1 byte, `ERR` or not. -/
theorem test_rcGetLength :
    view (fun t => t.resp) (exec .rcGetLength (session .enc 0 0x0108 3 [])) = some (some 0x0000000500000021) ∧
    view (fun t => t.resp) (exec .rcGetLength { session .dec 0 0xFFFF 0 [] with err := true, errCode := 3 }) =
      some (some 0x0000000100000002) := by decide

/-- R118: the example; R119: an empty payload is the one byte 7F. -/
theorem test_rcEncWrapup :
    view (fun t => (payloadBytes 5 t, t.ix, t.mode, t.resp))
      (exec .rcEncWrapup (session .enc 0x77410000 0x0108 3 [0x36, 0xFC, 0x29])) =
        some ([0x36, 0xFC, 0x29, 0x77, 0xFF], 5, .fin, some 0x0000000500000021) ∧
    view (payloadBytes 1) (exec .rcEncWrapup (session .enc 0 0xFFFF 0 [])) = some [0x7F] := by decide

/-- R120: the example, and the same with a padding bit 0. -/
theorem test_rcCheck :
    view (fun t => t.resp) (exec .rcCheck (session .dec 0 0x0108 3 [0x36, 0xFC, 0x29, 0x77, 0xFF])) =
      some (some 0) ∧
    view (fun t => t.resp) (exec .rcCheck (session .dec 0 0x0108 3 [0x36, 0xFC, 0x29, 0x77, 0xBF])) =
      some (some 0x1030000000000000) := by decide

/-! ## SR access -/

/-- R175: a tap is sign-extended. -/
theorem test_srRd :
    view (fun t => t.resp) (exec (.srRd 0 1) (withFirst { exampleContext with pvalid := true })) =
      some (some 0x00000000FFFFF000) := by decide

/-- R176: `VOICED` keeps one bit and `PVALID` is cleared; a latch cannot be written. -/
theorem test_srWr :
    view (fun t => ((t.ctx 0).voiced, (t.ctx 0).pvalid, t.resp))
      (exec (.srWr 0 0x52 3) (withFirst { exampleContext with voiced := false, pvalid := true })) =
        some (true, false, some 0) ∧
    view (fun t => t.resp) (exec (.srWr 0 0x61 5) fresh) = some (some 0x20C0000000000000) := by decide

/-- R177: a cell; ring 3 does not exist. -/
theorem test_srPeek :
    view (fun t => t.resp) (exec (.srPeek 0 2 6) (withFirst exampleContext)) = some (some 0xFFFFB9B0) ∧
    view (fun t => t.resp) (exec (.srPeek 0 3 1) fresh) = some (some 0x2040000000000000) := by decide

/-- R178: the last position of `SSHP` is written, the next does not exist. -/
theorem test_srPoke :
    view (fun t => ((t.ctx 1).sshp, (t.ctx 0).sshp.getD 8 7)) (exec (.srPoke 1 2 9 15000) fresh) =
      some ([0, 0, 0, 0, 0, 0, 0, 0, 15000], 0) ∧
    view (fun t => t.resp) (exec (.srPoke 1 2 10 15000) fresh) = some (some 0x2040000000000000) := by decide

/-- R146: the whole context, `PVALID` and latches with it; the source stays. -/
theorem test_srCopy :
    view (fun t => t.sr) (exec (.srCopy 1 0) (withFirst predictedContext)) =
      some [predictedContext, predictedContext] := by decide

/-- R147: the reset state of the context. -/
theorem test_srClear :
    view (fun t => t.sr) (exec (.srClear 0) (withFirst predictedContext)) = some fresh.sr := by decide

/-! ## Synthesis recursion -/

/-- R134 to R140: the worked example, every latch. -/
theorem test_srPredict :
    view (fun t => (t.resp, t.ctx 0)) (exec (.srPredict 0 20000) (withFirst exampleContext)) =
      some (some 2185, predictedContext) := by decide +kernel

/-- R139: the clamp; R133: from `SEED = 0x3619636B` the mask is all ones, so the residual is negated. -/
theorem test_srPredict_dithered :
    view (fun t => (t.resp, (t.ctx 0).seed))
      (exec (.srPredict 0 70000)
        (withFirst { SrContext.zero small with lpcOrd := 10, shpOrd := 12, seed := 0x3619636B })) =
      some (some 0x00000000FFFF0000, 0x9D6F2492) := by decide +kernel

/-- R142 to R145: the worked example with `q = 2`. -/
theorem test_srCommit :
    view (fun t => (t.resp, (t.ctx 0).lfar, (t.ctx 0).seed, (t.ctx 0).pvalid, (t.ctx 0).curSltp))
      (exec (.srCommit 0 2) (withFirst predictedContext)) =
        some (some 27371, 98356, 0x3619636D, false, 1) := by decide +kernel

/-- R143: the three pushes of the same example. -/
theorem test_srCommit_pushes :
    view (fun t => ((t.ctx 0).slpc.take 2, (t.ctx 0).sltp.take 4, (t.ctx 0).sshp.take 2))
      (exec (.srCommit 0 2) (withFirst predictedContext)) =
        some ([437936, 200000], [1351744, 0, 0, 3000000], [24255, 3000]) := by decide +kernel

/-- R13, by hand: products floor (a product of -1 and 1 is -1 after the shift), ties of the rounding shift go up,
leading zeros, and the negating mask at the most negative number. -/
theorem test_primitives :
    smulwb 0xFFFFFFFF 0x00000001 = 0xFFFFFFFF ∧ smulwt 0x00010000 0x80000000 = 0xFFFF8000 ∧
    rshiftRound 8 4 = 1 ∧ rshiftRound 0xFFFFFFF8 4 = 0 ∧ rshiftRound 0xFFFFFFF7 4 = 0xFFFFFFFF ∧
    clz32 0 = 32 ∧ clz32 1 = 31 ∧ clz32 0x80000000 = 0 ∧
    negateIf 0xFFFFFFFF 0x80000000 = 0x80000000 := by decide

/-! ## Presenting and stepping -/

/-- R198: a halted block answers UF_HALTED before it looks at the fields. -/
theorem test_present_halted :
    view (fun t => t.resp) (presentWord 0x1000000000000001 { fresh with halt := true }) =
      some (some 0x20F0000000000000) := by decide

/-- The word placed by `withFetchWord` is the one the next step runs. -/
theorem test_step_withFetchWord :
    view (fun t => (t.mode, t.len)) (step (fresh.withFetchWord 64 0x1000000500000000)) =
      some (.enc, 5) := by decide

/-- R220: a reset leaves the halted state. -/
theorem test_step_reset :
    view (fun t => (t.halt, t.port)) (step { fresh with halt := true, faultCode := 3, port := [.reset] }) =
      some (false, []) := by decide

/-! ## Witnesses: encoding and stepping -/

/-- A word that decodes, for `EncodeDecodeRoundTrip`: the greatest operands of SR_POKE. -/
theorem witness_EncodeDecodeRoundTrip :
    decode 0x25F0FFFFFFFFFFFF = .ok (.srPoke 15 3 0x3FFF 0xFFFFFFFF) := by decide

/-- Words for the clauses of `IllegalEncodingsFault` on `small`: an unassigned opcode next to an assigned one;
one unused bit of NOP and of BUF_WR; the first context that does not exist, as `CTX` and as SR_COPY's `A`; the
last context that exists. -/
theorem witness_IllegalEncodingsFault :
    fresh.halt = false ∧ (∀ row ∈ unusedBits, opcOf 0x0200000000000000 ≠ row.1) ∧
    ((0x00, 0x00FFFFFFFFFFFFFF) ∈ unusedBits ∧ opcOf 1 = 0x00 ∧ (1 : Word64) &&& 0x00FFFFFFFFFFFFFF ≠ 0) ∧
    ((0x19, 0x00FF0000FFFFFF00) ∈ unusedBits ∧ opcOf 0x1900000000000100 = 0x19 ∧
      (0x1900000000000100 : Word64) &&& 0x00FF0000FFFFFF00 ≠ 0) ∧
    (legalWord 0x2020000000000000 ∧ usesCtx 0x2020000000000000 ∧
      fresh.params.nCtx ≤ ctxOf 0x2020000000000000) ∧
    (legalWord 0x2110000200000000 ∧ usesCtx 0x2110000200000000 ∧ opcOf 0x2110000200000000 = 0x21 ∧
      fresh.params.nCtx ≤ aOf 0x2110000200000000) ∧
    (legalWord 0x2110000100000000 ∧ ¬ (fresh.params.nCtx ≤ ctxOf 0x2110000100000000 ∨
      fresh.params.nCtx ≤ aOf 0x2110000100000000)) := by
  simp only [legalWord, usesCtx]
  decide

theorem witness_StepRunsDecodedCommand :
    (fresh.withFetchWord 64 0x1A00000400000000).port = .command 0x1A00000400000000 :: [] ∧
    decode 0x1A00000400000000 = .ok (.cdfRd 4) ∧
    decodeTableWord 64 0x1A00000400000000 = some (.cdfRd 4) := by decide

theorem witness_StepIdlesOrResets :
    fresh.port = [] ∧
    ({ fresh with port := [.reset, .command 0] } : State).port = .reset :: [.command 0] := by decide

/-- A halted block in mid-session, a reset at its port, and a running block to clear a context of. -/
theorem witness_ResetLeavesTheTable :
    ({ session .enc 5 256 1 [9] with halt := true, faultCode := 3, port := [.reset] } : State).port =
      .reset :: [] ∧
    (withFirst predictedContext).params = fresh.params ∧ (withFirst predictedContext).halt = false ∧
    (withFirst predictedContext).sr.length = fresh.params.nCtx ∧ (1 : BitVec 4).toNat < fresh.params.nCtx ∧
    0 < fresh.params.lpcOrdMin ∧
    (view (fun _ => ()) (exec (.srClear 1) (withFirst predictedContext))).isSome = true := by decide

/-- `PrimitivesFollowTheTable`: the greatest shift, the least and the greatest rounding shift, a number that is
not 0, and a bound of the clamp. -/
theorem witness_PrimitivesFollowTheTable :
    (31 : Nat) ≤ 31 ∧ (2 : Nat) ≤ 2 ∧ (2 : Nat) ≤ 31 ∧ (1 : Word32) ≠ 0 ∧ 0 < 65536 ∧ 65536 < 2 ^ 31 := by
  decide

/-! ## Witnesses: exceptional outcomes and modes -/

/-- An encode session in `small`, one byte emitted, its second context in use. -/
def busy : State :=
  { session .enc 0xFE800000 0xFFC0 1 [0x35] with sr := [exampleContext, predictedContext] }

/-- The same block halted by an unknown opcode, in the middle of the session. -/
def busyHalted : State :=
  { busy with halt := true, faultCode := 1, faultInfo := 0x0200000000000000, resp := some (faultWord 1) }

/-- A state that meets the invariant is at hand, running and in a session. -/
theorem witness_inv_busy : busy.Inv where
  paramsValid := by decide
  bufGood := by decide
  lenLe := by decide
  ixLe := by decide
  rangeGe := by decide
  errCodeIff := by decide
  errCodeLe := by decide
  runningClear := by decide
  haltedCode := by decide
  idleClear := by decide
  encWritten := by decide
  ctxCount := by decide
  ctxGood := by decide +kernel

/-- A halted one too. -/
theorem witness_inv_busyHalted : busyHalted.Inv where
  paramsValid := by decide
  bufGood := by decide
  lenLe := by decide
  ixLe := by decide
  rangeGe := by decide
  errCodeIff := by decide
  errCodeLe := by decide
  runningClear := by decide
  haltedCode := by decide
  idleClear := by decide
  encWritten := by decide
  ctxCount := by decide
  ctxGood := by decide +kernel

/-- And the interval bound holds of it: `0x35 · 2^32 + 0xFE800000 + 0xFFC0 · 2^16` is below
`0xFFFF · 2^16 · 256`. -/
theorem witness_interval_busy : busy.EncoderInterval := by
  unfold State.EncoderInterval
  decide

/-- For `EveryCommandGetsOneResponse`, `InvHoldsAtReset`, `StepKeepsInv`, `StepKeepsEncoderInterval` and
`CarryNeverPassesTheStart`: a good state, a step from it that answers a next state, and an RC_ENCODE and an
RC_ENC_WRAPUP from it that do. -/
theorem witness_good_steps :
    busy.Inv ∧ busy.EncoderInterval ∧ small.valid = true ∧
    (view (fun _ => ()) (step (busy.withFetchWord 64 0x1200000300040002))).isSome = true ∧
    (view (fun _ => ()) (exec (.rcEncode 3 4 2) busy)).isSome = true ∧
    (view (fun _ => ()) (exec .rcEncWrapup busy)).isSome = true :=
  ⟨witness_inv_busy, witness_interval_busy, by decide, by decide +kernel, by decide +kernel, by decide +kernel⟩

/-- `UsageFaultIsPrecise`: a word that halts a running block, one that does not, and one on a halted block. -/
theorem witness_UsageFaultIsPrecise :
    view (fun t => (t.resp, t.halt)) (presentWord 0x1A00002000000000 fresh) = some (some (faultWord 4), true) ∧
    view (fun t => (t.resp, t.halt)) (presentWord 0x1A00001F00000000 fresh) = some (some (okWord 0 0), false) ∧
    view (fun t => t.resp) (presentWord 0x0000000000000001 busyHalted) = some (some (faultWord 2)) := by decide

/-- `HaltedBlockAnswersOnly`: a halted state, an opcode just beyond the accepted two, a CSR in the table, and a
reset at its port. -/
theorem witness_HaltedBlockAnswersOnly :
    busyHalted.halt = true ∧ opcOf 0x0200000000000000 ≠ 0x00 ∧ opcOf 0x0200000000000000 ≠ 0x01 ∧
    busyHalted.params.valid = true ∧ (0x15, 0x0C0A1010) ∈ csrs busyHalted ∧
    view (fun t => t.halt) (step { busyHalted with port := [.reset] }) = some false := by decide

/-- `RcErrorIsPrecise`: an RC_ENCODE without room for its byte, and an init with a length one too long. -/
theorem witness_RcErrorIsPrecise :
    busy.err = false ∧
    view (fun t => t.err) (exec (.rcEncode 15 3 0) { busy with len := 1 }) = some true ∧
    view (fun t => t.err) (exec (.rcDecInit 9) busy) = some true ∧
    busy.params.bufBytes < (9 : Word16).toNat := by decide

/-- `StickyErrorGates`: running states with `ERR` set, in and out of the modes of the gated commands. -/
theorem witness_StickyErrorGates :
    ({ busy with err := true, errCode := 1 } : State).halt = false ∧
    ({ busy with err := true, errCode := 1 } : State).err = true ∧
    ({ busy with err := true, errCode := 1 } : State).mode = .enc ∧
    ({ busy with err := true, errCode := 3, mode := .dec } : State).mode = .dec ∧
    (view (fun _ => ()) (exec (.rcEncInit 8) { busy with err := true, errCode := 1 })).isSome = true ∧
    (view (fun _ => ()) (exec (.bufRd 0) { busy with err := true, errCode := 1 })).isSome = true := by
  decide

/-- `ModesAreRespected`: a command out of its mode, and one in it that changes the mode. -/
theorem witness_ModesAreRespected :
    busy.halt = false ∧ busy.mode ∉ legalModes .rcCheck ∧ busy.mode ∈ legalModes .rcEncWrapup ∧
    view (fun t => t.mode) (exec .rcEncWrapup busy) = some .fin ∧
    view (fun t => t.mode) (exec .rcCheck busy) = some .enc := by decide +kernel

/-- `UnitsShareNothing`, `ReadsHaveNoSideEffects`, `ContextsAreIndependent`: commands of each unit that answer a
next state; SR_COPY names two contexts and neither is the third. -/
theorem witness_command_groups :
    isRc (.bufRd 0) = true ∧ isSr (.srCopy 1 0) = true ∧ isRc .nop = false ∧ isSr .nop = false ∧
    (view (fun _ => ()) (exec (.bufRd 0) busy)).isSome = true ∧
    (view (fun _ => ()) (exec (.srCopy 1 0) busy)).isSome = true ∧
    (names (.srCopy 1 0)).head? ≠ some 0 ∧ 2 ∉ names (.srCopy 1 0) := by decide

/-! ## Witnesses: access commands -/

/-- `NopDoesNothing`: words with the opcode of NOP. -/
theorem witness_NopDoesNothing : opcOf 1 = 0 ∧ (1 : Word64) ≠ 0 ∧ fresh.halt = false := by decide

/-- `CsrReadsTheTable`: the last index in the table and the one after it. -/
theorem witness_CsrReadsTheTable :
    fresh.params.valid = true ∧ (0x15, 0x0C0A1010) ∈ csrs fresh ∧ (0x15 : Word16).toNat = 0x15 ∧
    (∀ e ∈ csrs fresh, e.1 ≠ (0x16 : Word16).toNat) := by decide

/-- `BufReadAnswersTheByte` and `BufWriteStoresTheByte`: the last address and the one after it; `ENC` and
not. -/
theorem witness_buffer_bounds :
    fresh.halt = false ∧ (7 : Word16).toNat < fresh.params.bufBytes ∧
    fresh.params.bufBytes ≤ (8 : Word16).toNat ∧ fresh.mode ≠ .enc ∧ busy.halt = false ∧ busy.mode = .enc := by
  decide

/-- `CdfReadAnswersTheEntry`: the last entry and the one after it. -/
theorem witness_CdfReadAnswersTheEntry :
    fresh.halt = false ∧ fresh.params.cdfImage[(31 : Word16).toNat]? = some 0 ∧
    fresh.params.cdfImage[(32 : Word16).toNat]? = none := by decide

/-- `SrReadAnswersTheRegister` and `SrWriteStoresTheLowBits`: the last tap of `A` and the first index beyond;
a read-only register; a context that does not exist. -/
theorem witness_sr_registers :
    busy.halt = false ∧ busy.params.valid = true ∧ busy.sr.length = busy.params.nCtx ∧
    busy.params.nCtx ≤ (2 : BitVec 4).toNat ∧ busy.sr[(1 : BitVec 4).toNat]? = some predictedContext ∧
    predictedContext.shaped busy.params = true ∧
    ((0x0F, 0) ∈ regs busy.params predictedContext ∧ (0x0F : Word16).toNat = 0x0F) ∧
    (isReg busy.params (0x0F : Word16).toNat ∧ (0x0F : Word16).toNat ∉ readOnly) ∧
    ¬ isReg busy.params (0x10 : Word16).toNat ∧ ¬ isReg busy.params (0x45 : Word16).toNat ∧
    ((0x60 : Word16).toNat ∈ readOnly ∧ (0x71 : Word16).toNat ∈ readOnly) := by
  simp only [isReg]
  decide +kernel

/-- `SrPeekAnswersTheCell` and `SrPokeOverwritesTheCell`: the last position of a ring, the one after it,
position 0, ring 3, a context that does not exist. -/
theorem witness_sr_rings :
    busy.halt = false ∧ busy.sr.length = busy.params.nCtx ∧ busy.params.nCtx ≤ (2 : BitVec 4).toNat ∧
    busy.sr[(0 : BitVec 4).toNat]? = some exampleContext ∧ exampleContext.shaped busy.params = true ∧
    ((9 : BitVec 14) ≠ 0 ∧ exampleContext.sltp[(9 : BitVec 14).toNat - 1]? = some 0 ∧
      (9 : BitVec 14).toNat ≤ exampleContext.sltp.length) ∧
    exampleContext.sltp.length < (10 : BitVec 14).toNat ∧ (0 : BitVec 14) = 0 ∧ (3 : BitVec 2) = 3 := by
  decide +kernel

/-- `SrCopyCopiesTheContext` and `SrClearZeroesTheContext`: the last context, and the first that does not
exist as destination and as source. -/
theorem witness_sr_contexts :
    busy.halt = false ∧ busy.sr.length = busy.params.nCtx ∧ (1 : BitVec 4).toNat < busy.params.nCtx ∧
    busy.sr[(1 : Word16).toNat]? = some predictedContext ∧ busy.params.nCtx ≤ (2 : BitVec 4).toNat ∧
    busy.params.nCtx ≤ (2 : Word16).toNat := by decide +kernel

/-! ## Witnesses: range coder -/

/-- `EncInitBeginsSession`, `DecInitSeedsBase`: the greatest length that fits and the least that does not. -/
theorem witness_init_lengths :
    busy.halt = false ∧ (8 : Word16).toNat ≤ busy.params.bufBytes ∧ busy.params.bufBytes < (9 : Word16).toNat := by
  decide

/-- `EncodeChecksInOrder` and `DecodeChecksInOrder`: states and operands for every row, at the boundaries. -/
theorem witness_rc_checks :
    busy.halt = false ∧ busy.len.toNat ≤ busy.params.bufBytes ∧ busy.mode = .enc ∧ busy.err = false ∧
    (¬ (4 : Word16).toNat ≤ (3 : Word16).toNat ∧ (4 : Word16).toNat ≤ (4 : Word16).toNat) ∧
    (¬ busy.params.cdfEntries ≤ (27 : Word16).toNat + (4 : Word16).toNat ∧
      busy.params.cdfEntries ≤ (28 : Word16).toNat + (4 : Word16).toNat) ∧
    (entry busy 13 ≤ entry busy 12 ∧ ¬ entry busy 12 ≤ entry busy 11) := by decide

/-- `EncodeFollowsTheMainRule`: the hypotheses, and a state for each clause (room and no carry; no room; room
and a carry with nothing to take it; room and a carry that a byte takes, with `IX + n = LEN`). -/
theorem witness_EncodeFollowsTheMainRule :
    busy.halt = false ∧ busy.mode = .enc ∧ busy.err = false ∧ busy.len.toNat ≤ busy.params.bufBytes ∧
    (2 : Word16).toNat < (4 : Word16).toNat ∧ (3 : Word16).toNat + (4 : Word16).toNat < busy.params.cdfEntries ∧
    entry busy (3 + 2) < entry busy (3 + 2 + 1) ∧
    (let n := moved (0xFFC0 * (entry busy 6 - entry busy 5))
     busy.ix.toNat + n ≤ busy.len.toNat ∧ 2 ^ 32 ≤ busy.base.toNat + 0xFFC0 * entry busy 5 ∧
     ¬ ∀ j, j < busy.ix.toNat → busy.bufByte j = 0xFF) ∧
    (let n := moved (0xFFC0 * (entry busy 16 - entry busy 15)) -- a symbol of width 1: one byte moves
     n = 2 ∧ busy.ix.toNat + n ≤ 3 ∧ 2 < busy.ix.toNat + n) ∧
    (∀ j, j < (session .enc 0xFE800000 0xFFC0 1 [0xFF]).ix.toNat →
      (session .enc 0xFE800000 0xFFC0 1 [0xFF]).bufByte j = 0xFF) := by decide

/-- `CarryWalksBackOverFF`: an RC_ENCODE that carries over two bytes FF, one that does not carry, one that
cannot; and an RC_ENC_WRAPUP whose rounding carries. -/
theorem witness_CarryWalksBackOverFF :
    view (fun t => t.resp) (exec (.rcEncode 3 4 3) (session .enc 0xFFFFFFFF 0xFFFF 4 [0, 0, 0xFF, 0xFF])) =
      some (some (okWord 0 0)) ∧
    2 ^ 32 ≤ 0xFFFFFFFF + 0xFFFF * entry busy (3 + 3) ∧
    view (fun t => t.resp) (exec (.rcEncode 3 4 0) busy) = some (some (okWord 0 0)) ∧
    ¬ 2 ^ 32 ≤ busy.base.toNat + busy.range.toNat * entry busy (3 + 0) ∧
    view (fun t => t.resp) (exec (.rcEncode 3 4 3) (session .enc 0xFFFFFFFF 0xFFFF 1 [0xFF])) =
      some (some (faultWord 11)) ∧
    view (fun t => (t.resp, payloadBytes 2 t)) (exec .rcEncWrapup busy) =
      some (some (okWord 2 10), [0x36, 0x3F]) ∧
    lengthTerm busy.range.toNat 2 ∧ 2 ^ 2 ≤ busy.base.toNat / 2 ^ (32 - 2) + 1 := by
  simp only [lengthTerm]
  decide +kernel

/-- A decode session in `small` (the worked example of R113). -/
def pulling : State := session .dec 0x02FD2977 0x03FF 0 [0x36, 0xFC, 0x29, 0x77, 0xFF]

/-- `DecodeFollowsTheMainRule`: the hypotheses, the symbol of the example, room and no room for its byte, and a
value that no symbol contains. -/
theorem witness_DecodeFollowsTheMainRule :
    pulling.halt = false ∧ pulling.mode = .dec ∧ pulling.err = false ∧
    pulling.len.toNat ≤ pulling.params.bufBytes ∧ 0 < (4 : Word16).toNat ∧
    (3 : Word16).toNat + (4 : Word16).toNat < pulling.params.cdfEntries ∧ isDecoded pulling 3 4 2 ∧
    (let n := moved (0x03FF * (entry pulling 6 - entry pulling 5))
     n = 1 ∧ pulling.ix.toNat + n ≤ 1 ∧ 0 < pulling.ix.toNat + n) ∧
    (let out := session .dec 0xFFFFFFFF 0x03FF 0 []
     out.range.toNat * entry out (3 + 4) ≤ out.base.toNat) := by
  refine ⟨by decide, by decide, by decide, by decide, by decide, by decide, ⟨by decide, by decide, ?_⟩,
    by decide, by decide⟩
  intro j h1 h2
  obtain rfl | rfl : j = 3 ∨ j = 4 := by omega
  · decide
  · decide

/-- `DecodeIgnoresTheHint` and `PayloadIsReadLazily`: a decode that answers a next state, and a `BUF` that
agrees with it from position 4 on only. -/
theorem witness_decode_reads :
    (view (fun _ => ()) (exec (.rcDecode 3 4 0) pulling)).isSome = true ∧
    (∀ a, a < pulling.len.toNat → 4 + pulling.ix.toNat ≤ a →
      Memory.read 0 (bytes [1, 2, 3, 4, 0xFF, 5, 6, 7]) a =
        Memory.read 0 (bytes [0x36, 0xFC, 0x29, 0x77, 0xFF, 5, 6, 7]) a) := by decide

/-- `GetLengthAnswersBitsAndBytes`, `WrapUpRoundsUpAndPads` and `CheckVerifiesThePadding`: the greatest and the
least range of a session with their terms; modes for every clause; room and no room; a byte that takes the
carry. -/
theorem witness_lengths :
    fresh.halt = false ∧ fresh.mode ≠ .enc ∧ fresh.mode ≠ .dec ∧ busy.halt = false ∧ busy.mode = .enc ∧
    busy.err = false ∧ 256 ≤ busy.range.toNat ∧ lengthTerm 65535 2 ∧ lengthTerm 32769 2 ∧
    lengthTerm 32768 3 ∧ lengthTerm 257 9 ∧ lengthTerm 256 10 ∧ lengthTerm busy.range.toNat 2 ∧
    busy.len.toNat ≤ busy.params.bufBytes ∧ busy.ix.toNat + bytesFor 2 ≤ busy.len.toNat ∧
    (1 : Nat) < busy.ix.toNat + bytesFor 2 ∧ busy.bufByte 0 ≠ 0xFF := by
  simp only [lengthTerm]
  decide

/-- `WrapUpRoundsUpAndPads`, clause by clause: the sticky error; one byte short of room, and just enough; a
carry with nothing to take it, and one that a byte takes. -/
theorem witness_WrapUpRoundsUpAndPads :
    ({ busy with err := true, errCode := 1 } : State).err = true ∧
    ({ busy with len := 1 } : State).len.toNat < busy.ix.toNat + bytesFor 2 ∧
    busy.ix.toNat + bytesFor 2 ≤ ({ busy with len := 2 } : State).len.toNat ∧
    2 ^ 2 ≤ busy.base.toNat / 2 ^ (32 - 2) + 1 ∧
    (∀ j, j < (session .enc 0xFE800000 0xFFC0 1 [0xFF]).ix.toNat →
      (session .enc 0xFE800000 0xFFC0 1 [0xFF]).bufByte j = 0xFF) ∧
    ¬ (∀ j, j < busy.ix.toNat → busy.bufByte j = 0xFF) := by decide

/-- `CheckVerifiesThePadding` in `DEC`: the example of R120, whole, with a padding bit 0, and cut short. -/
theorem witness_CheckVerifiesThePadding :
    (let s := session .dec 0 0x0108 3 [0x36, 0xFC, 0x29, 0x77, 0xFF]
     s.mode = .dec ∧ s.err = false ∧ lengthTerm s.range.toNat 9 ∧ s.ix.toNat + bytesFor 9 ≤ 5 ∧
     4 < s.ix.toNat + bytesFor 9 ∧
     (s.bufByte 4).toNat % 2 ^ (8 * bytesFor 9 - 9) = 2 ^ (8 * bytesFor 9 - 9) - 1) ∧
    (let s := session .dec 0 0x0108 3 [0x36, 0xFC, 0x29, 0x77, 0xBF]
     ¬ (s.bufByte 4).toNat % 2 ^ (8 * bytesFor 9 - 9) = 2 ^ (8 * bytesFor 9 - 9) - 1) := by
  simp only [lengthTerm]
  decide

/-- `DecoderKeepsTheEncodersSchedule`: an encoder and a decoder with equal `RANGE` and `IX` that succeed on the
same symbol. -/
theorem witness_DecoderKeepsTheEncodersSchedule :
    (session .enc 0x33FF0000 0x03FF 0 []).range = pulling.range ∧
    (session .enc 0x33FF0000 0x03FF 0 []).ix = pulling.ix ∧
    view (fun t => t.resp) (exec (.rcEncode 3 4 2) (session .enc 0x33FF0000 0x03FF 0 [])) =
      some (some (okWord 0 0)) ∧
    view (fun t => t.resp) (exec (.rcDecode 3 4 9) pulling) = some (some (okWord 0 (2 : Word16).toNat)) := by
  decide

/-- `BitsNeverDecrease`: a good session, an RC_ENCODE in it that succeeds, and the two lengths (10 and 12). -/
theorem witness_BitsNeverDecrease :
    busy.Inv ∧ busy.mode.inSession = true ∧
    view (fun t => t.resp) (exec .rcGetLength busy) = some (some (okWord 2 10)) ∧
    view (fun t => t.halt) (exec (.rcEncode 3 4 2) busy) = some false ∧
    view (fun t => t.resp) (exec .rcGetLength (after (.rcEncode 3 4 2) busy)) = some (some (okWord 2 12)) :=
  ⟨witness_inv_busy, by decide, by decide +kernel, by decide +kernel, by decide +kernel⟩

/-- Two symbols, the first and the last of their tables. -/
def twoSymbols : List Coded := [⟨3, 4, 0, 0⟩, ⟨15, 3, 2, 9⟩]

/-- A decoder for their payload: another mode, the error set, the three bytes of the payload and other bytes
beyond them, after another reset. -/
def receiver : State :=
  { fresh with
    epoch := 1, mode := .fin, err := true, errCode := 3,
    buf := bytes (payloadBytes 3 (runAll (encoding 8 twoSymbols ++ [.rcEncWrapup]) fresh) ++ [0xAB, 0, 0xCD]) }

/-- `DecodingInvertsEncoding`: a session of two symbols that answers OK throughout, and a decoder that has its
bytes and is given a longer payload. -/
theorem witness_DecodingInvertsEncoding :
    fresh.halt = false ∧ (8 : Word16).toNat ≤ fresh.params.bufBytes ∧
    (∀ k ∈ twoSymbols, k.good fresh.params) ∧ 20 < 2 ^ 32 ∧
    answers (encoding 8 twoSymbols ++ [.rcEncWrapup]) fresh =
      (encoding 8 twoSymbols).map (fun _ => some (okWord 0 0)) ++
        [some (okWord (runAll (encoding 8 twoSymbols ++ [.rcEncWrapup]) fresh).ix.toNat 20)] ∧
    (runAll (encoding 8 twoSymbols ++ [.rcEncWrapup]) fresh).ix.toNat ≤ (6 : Word16).toNat ∧
    (receiver.halt = false ∧ receiver.params = fresh.params ∧ (6 : Word16).toNat ≤ fresh.params.bufBytes ∧
      ∀ a, a < (runAll (encoding 8 twoSymbols ++ [.rcEncWrapup]) fresh).ix.toNat →
        receiver.bufByte a = (runAll (encoding 8 twoSymbols ++ [.rcEncWrapup]) fresh).bufByte a) := by
  refine ⟨by decide, by decide, ?_, by decide, by decide +kernel, by decide +kernel, by decide +kernel⟩
  intro k hk
  obtain rfl | rfl : k = ⟨3, 4, 0, 0⟩ ∨ k = ⟨15, 3, 2, 9⟩ := by simpa [twoSymbols] using hk
  all_goals
    refine ⟨⟨by decide, ?_, by decide, by decide⟩, by decide, by decide⟩
    decide

/-! ## Witnesses: synthesis recursion -/

/-- The configuration of the worked example is accepted. -/
theorem witness_accepted : accepted small exampleContext := by
  simp only [accepted, badOrder, badLag]
  decide +kernel

/-- `PredictChecksInOrder`: contexts for every row, at the boundaries of orders and lag. -/
theorem witness_PredictChecksInOrder :
    (withFirst exampleContext).halt = false ∧ (withFirst exampleContext).sr.length = small.nCtx ∧
    small.nCtx ≤ (2 : BitVec 4).toNat ∧ (withFirst exampleContext).sr[(0 : BitVec 4).toNat]? = some exampleContext ∧
    exampleContext.pvalid = false ∧ predictedContext.pvalid = true ∧
    (badOrder small.lpcOrdMin small.lpcOrdMax 8 ∧ badOrder small.lpcOrdMin small.lpcOrdMax 11 ∧
      badOrder small.lpcOrdMin small.lpcOrdMax 18 ∧ ¬ badOrder small.lpcOrdMin small.lpcOrdMax 16) ∧
    (badOrder small.shpOrdMin small.shpOrdMax 10 ∧ ¬ badOrder small.shpOrdMin small.shpOrdMax 12) ∧
    (badLag small { exampleContext with lag := 2 } ∧ ¬ badLag small { exampleContext with lag := 3 } ∧
      ¬ badLag small { exampleContext with lag := 7 } ∧ badLag small { exampleContext with lag := 8 }) := by
  simp only [badOrder, badLag]
  decide +kernel

/-- `PredictComputesTheResidual`, `ResidualIsClamped`, `CoefficientsAreInputs`: the worked example, voiced. -/
theorem witness_PredictComputesTheResidual :
    busy.halt = false ∧ (0 : BitVec 4).toNat < busy.params.nCtx ∧
    busy.sr[(0 : BitVec 4).toNat]? = some exampleContext ∧ exampleContext.pvalid = false ∧
    accepted busy.params exampleContext ∧ busy.Inv ∧ exampleContext.voiced = true ∧
    view (fun t => t.resp) (exec (.srPredict 0 20000) busy) = some (some (okWord 0 2185)) :=
  ⟨by decide, by decide, by decide +kernel, by decide, witness_accepted, witness_inv_busy, by decide,
    by decide +kernel⟩

/-- `CoefficientsAreInputs`: taps that differ at and above the orders in use, and an SR_PREDICT on them. -/
theorem witness_CoefficientsAreInputs :
    busy.sr[(0 : BitVec 4).toNat]? = some exampleContext ∧
    (∀ k, k < exampleContext.lpcOrd.toNat → tap (exampleContext.a.set 10 5) k = tap exampleContext.a k) ∧
    (∀ k, k < exampleContext.shpOrd.toNat → tap (exampleContext.ar.set 12 5) k = tap exampleContext.ar k) ∧
    (view (fun _ => ()) (exec (.srPredict 0 20000) busy)).isSome = true := by decide +kernel

/-- `CommitPushesTheSample`, `CommitNeedsAPrediction`, `PvalidPairsPredictAndCommit`: a predicted context and
one that is not. -/
theorem witness_CommitPushesTheSample :
    busy.halt = false ∧ (1 : BitVec 4).toNat < busy.params.nCtx ∧ busy.sr.length = busy.params.nCtx ∧
    busy.params.nCtx ≤ (2 : BitVec 4).toNat ∧
    busy.sr[(1 : BitVec 4).toNat]? = some predictedContext ∧ predictedContext.pvalid = true ∧
    (predictedContext.lDither = 0 ∨ predictedContext.lDither = 0xFFFFFFFF) ∧
    predictedContext.shaped busy.params = true ∧
    busy.sr[(0 : BitVec 4).toNat]? = some exampleContext ∧ exampleContext.pvalid = false ∧
    view (fun t => t.resp) (exec (.srCommit 1 2) busy) = some (some (okWord 0 27371)) := by decide +kernel

/-- A silent context: unvoiced, accepted orders, taps of the worked example, all else zero. -/
def silent : SrContext :=
  { SrContext.zero small with lpcOrd := 10, shpOrd := 16, a := exampleContext.a, ar := exampleContext.ar }

/-- `UnvoicedIgnoresLongTerm`: an unvoiced context on which SR_PREDICT, and then SR_COMMIT, do not halt. -/
theorem witness_UnvoicedIgnoresLongTerm :
    (withFirst silent).sr[(0 : BitVec 4).toNat]? = some silent ∧ silent.voiced = false ∧
    silent.sltp.length = small.ringDepth ∧ exampleContext.sltp.length = small.ringDepth ∧
    view (fun t => t.halt) (exec (.srPredict 0 7) (withFirst silent)) = some false ∧
    view (fun t => t.halt) (exec (.srCommit 0 7) (withFirst { silent with pvalid := true })) = some false := by
  decide +kernel

/-- The configuration of the silent context is accepted. -/
theorem witness_accepted_silent : accepted small silent := by
  simp only [accepted, badOrder, badLag]
  decide +kernel

/-- `SilenceStaysSilent`. -/
theorem witness_SilenceStaysSilent :
    ((withFirst silent).halt = false ∧ (0 : BitVec 4).toNat < small.nCtx ∧
      (withFirst silent).sr[(0 : BitVec 4).toNat]? = some silent) ∧
    (silent.pvalid = false ∧ accepted small silent ∧ silent.shaped small = true ∧ silent.voiced = false) ∧
    (silent.offset = 0 ∧ silent.lfar = 0 ∧ silent.lLpc = 0 ∧ silent.lLtp = 0) ∧
    (silent.lNar = 0 ∧ silent.lNlf = 0 ∧ silent.lNltp = 0 ∧ silent.lR = 0) ∧
    ((∀ v ∈ silent.slpc, v = 0) ∧ (∀ v ∈ silent.sltp, v = 0) ∧ (∀ v ∈ silent.sshp, v = 0)) :=
  ⟨by decide +kernel, ⟨rfl, witness_accepted_silent, by decide +kernel, rfl⟩, ⟨rfl, rfl, rfl, rfl⟩,
    ⟨rfl, rfl, rfl, rfl⟩, by simp [silent, SrContext.zero]⟩

/-- One sample of an encoder and its decoder, with a register write and a poke before it. -/
def replayed : List (Instr × Instr) :=
  [(.srWr 0 0 5, .srWr 0 0 5), (.srPoke 0 1 1 9, .srPoke 0 1 1 9),
   (.srPredict 0 20000, .srPredict 0 0), (.srCommit 0 2, .srCommit 0 2)]

/-- `DecoderReplaysTheEncoder`: two states alike, a script, and no fault in it. -/
theorem witness_DecoderReplaysTheEncoder :
    alike 0 (withFirst exampleContext) { withFirst { exampleContext with lR := 77 } with resp := some 5 } ∧
    (∀ pair ∈ replayed, replayPair 0 pair) ∧
    (runAll (replayed.map Prod.fst) (withFirst exampleContext)).halt = false ∧
    (replayed.map Prod.fst)[3]? = some (.srCommit 0 2) := by
  refine ⟨⟨exampleContext, 77, some 5, by decide +kernel, by decide +kernel⟩, ?_, by decide +kernel, by decide⟩
  intro pair h
  simp only [replayed, List.mem_cons, List.not_mem_nil, or_false] at h
  obtain rfl | rfl | rfl | rfl := h
  · exact .inr (.inr (.inl ⟨_, _, rfl⟩))
  · exact .inr (.inr (.inr ⟨_, _, _, rfl⟩))
  · exact .inl ⟨_, _, rfl⟩
  · exact .inr (.inl ⟨_, rfl⟩)

end Sys2Proof.Tests
end

/-! ## The vocabulary of the statements, tied to the model

Response words and exceptional outcomes of `Sys2Proof.Claims` against the operations of the model, once each. -/

namespace Sys2Proof.Machine

open Sys2Proof.Claims

/-! ### Response words (R86) -/

/-- A response word as a number. -/
theorem respWord_toNat (st : Status) (code : BitVec 8) (r1 : BitVec 20) (r0 : Word32) :
    (respWord st code r1 r0).toNat =
      ((st.code.toNat * 2 ^ 8 + code.toNat) * 2 ^ 20 + r1.toNat) * 2 ^ 32 + r0.toNat := by
  simp only [respWord, append_toNat]

theorem respWord_ok (r1 : BitVec 20) (r0 : Word32) :
    respWord .ok 0 r1 r0 = okWord r1.toNat r0.toNat := by
  have h1 := r1.isLt
  have h0 := r0.isLt
  apply BitVec.eq_of_toNat_eq
  simp only [respWord_toNat, okWord, Status.code, BitVec.ofNat_eq_ofNat, BitVec.toNat_ofNat]
  omega

theorem respWord_rcError (code : BitVec 4) :
    respWord .rcError (code.setWidth 8) 0 0 = errWord code.toNat := by
  have hc := code.isLt
  apply BitVec.eq_of_toNat_eq
  simp only [respWord_toNat, errWord, Status.code, BitVec.ofNat_eq_ofNat, BitVec.toNat_ofNat,
    BitVec.toNat_setWidth]
  omega

theorem respWord_fault (code : BitVec 4) :
    respWord .fault (code.setWidth 8) 0 0 = faultWord code.toNat := by
  have hc := code.isLt
  apply BitVec.eq_of_toNat_eq
  simp only [respWord_toNat, faultWord, Status.code, BitVec.ofNat_eq_ofNat, BitVec.toNat_ofNat,
    BitVec.toNat_setWidth]
  omega

@[simp] theorem classOf_okWord (r1 : BitVec 20) (r0 : Word32) : classOf (okWord r1.toNat r0.toNat) = 0 := by
  have h1 := r1.isLt
  have h0 := r0.isLt
  simp only [classOf, okWord, BitVec.toNat_ofNat]
  omega

@[simp] theorem classOf_okWord_zero (r0 : Word32) : classOf (okWord 0 r0.toNat) = 0 :=
  classOf_okWord 0 r0

@[simp] theorem classOf_errWord (code : BitVec 4) : classOf (errWord code.toNat) = 1 := by
  have hc := code.isLt
  simp only [classOf, errWord, BitVec.toNat_ofNat]
  omega

@[simp] theorem classOf_faultWord (code : BitVec 4) : classOf (faultWord code.toNat) = 2 := by
  have hc := code.isLt
  simp only [classOf, faultWord, BitVec.toNat_ofNat]
  omega

/-- Only UF_MODE answers the response of code 5 (R195). -/
theorem faultWord_code_eq_five_iff (f : UsageFault) : faultWord f.code.toNat = faultWord 5 ↔ f = .mode := by
  cases f <;> decide

/-! ### Exceptional outcomes -/

/-- `s` after the usage fault `f` of the command word `word`: recorded if it is the first (R196). -/
def usageFaulted (s : State) (word : Word64) (f : UsageFault) : State :=
  if s.halt then answered s (faultWord f.code.toNat) else faulted s word f.code.toNat

theorem usageFaulted_of_running {s : State} (h : s.halt = false) (word : Word64) (f : UsageFault) :
    usageFaulted s word f = faulted s word f.code.toNat := by
  simp [usageFaulted, h]

@[simp] theorem usageFaulted_sr (s : State) (word : Word64) (f : UsageFault) :
    (usageFaulted s word f).sr = s.sr := by
  unfold usageFaulted; split <;> rfl

@[simp] theorem usageFaulted_mode (s : State) (word : Word64) (f : UsageFault) :
    (usageFaulted s word f).mode = s.mode := by
  unfold usageFaulted; split <;> rfl

@[simp] theorem usageFaulted_resp (s : State) (word : Word64) (f : UsageFault) :
    (usageFaulted s word f).resp = some (faultWord f.code.toNat) := by
  unfold usageFaulted; split <;> rfl

@[simp] theorem answered_sr (s : State) (word : Word64) : (answered s word).sr = s.sr := rfl
@[simp] theorem answered_mode (s : State) (word : Word64) : (answered s word).mode = s.mode := rfl
@[simp] theorem answered_resp (s : State) (word : Word64) : (answered s word).resp = some word := rfl

@[simp] theorem rcFailed_sr (s : State) (code : Nat) : (rcFailed s code).sr = s.sr := rfl
@[simp] theorem rcFailed_mode (s : State) (code : Nat) : (rcFailed s code).mode = s.mode := rfl
@[simp] theorem rcFailed_resp (s : State) (code : Nat) : (rcFailed s code).resp = some (errWord code) := rfl

theorem raiseUsageFault_eq (word : Word64) (f : UsageFault) (s : State) :
    raiseUsageFault word f s = .next (usageFaulted s word f) := by
  cases h : s.halt
  · rw [raiseUsageFault_running _ _ _ h, respWord_fault, usageFaulted_of_running h]
    simp [faulted, State.withResp, State.withFault]
  · rw [raiseUsageFault_halted _ _ _ h, respWord_fault]
    simp [usageFaulted, h, answered, State.withResp]

theorem raiseRcError_eq (e : RcError) (s : State) : raiseRcError e s = .next (rcFailed s e.code.toNat) := by
  rw [raiseRcError_next, respWord_rcError]
  simp [rcFailed, State.withResp, State.withErr]

theorem refuseErr_eq (s : State) : refuseErr s = .next (answered s (errWord s.errCode.toNat)) := by
  rw [refuseErr_next, respWord_rcError]; rfl

theorem respond_ok_eq (r1 : BitVec 20) (r0 : Word32) (s : State) :
    respond .ok 0 r1 r0 s = .next (answered s (okWord r1.toNat r0.toNat)) := by
  rw [respond_next, respWord_ok]; rfl

theorem respondOk_eq (r0 : Word32) (s : State) :
    respondOk r0 s = .next (answered s (okWord 0 r0.toNat)) :=
  respond_ok_eq 0 r0 s

/-! ### Contexts of a state -/

/-- An existing context is the one a command reads. -/
theorem State.ctx_of_getElem? {s : State} {k : Nat} {c : SrContext} (h : s.sr[k]? = some c) : s.ctx k = c := by
  simp [State.ctx, List.getD_eq_getElem?_getD, h]

theorem State.getElem?_of_lt {s : State} {k : Nat} (h : k < s.sr.length) : s.sr[k]? = some (s.ctx k) := by
  simp [State.ctx, h]

/-- After storing `x` in context `k`, an existing context is `x` or as it was. -/
theorem State.withCtx_getElem? {s : State} {k j : Nat} {x c c' : SrContext} (hc : s.sr[j]? = some c)
    (hc' : (s.withCtx k x).sr[j]? = some c') : if k = j then c' = x else c' = c := by
  obtain ⟨hj, -⟩ := List.getElem?_eq_some_iff.mp hc
  split
  · next h => subst h; simpa [hj, eq_comm] using hc'
  · next h => simpa [List.getElem?_set_ne h, hc, eq_comm] using hc'

end Sys2Proof.Machine

/-! ## What a command can do

`exec_answers` says once what `exec` can answer: an exceptional outcome, a completion that leaves every context
alone, or a completion that stores one context. The proofs below, of every statement about all commands, split
along it and unfold no meaning. -/

namespace Sys2Proof.Machine

open Sys2Proof.Claims

/-- The checks of SR_PREDICT on its context, in the order of R131: the first that fails, if any. -/
def SrContext.predictCheck (p : Params) (c : SrContext) : Option UsageFault :=
  if c.pvalid then some .seq
  else if !orderLegal p.lpcOrdMin p.lpcOrdMax c.lpcOrd then some .order
  else if !orderLegal p.shpOrdMin p.shpOrdMax c.shpOrd then some .order
  else if c.voiced && !lagLegal p.ringDepth c.lag then some .lag
  else none

/-- All checks of SR_PREDICT in the order of R198: the first that fails, if any. -/
def State.predictFault (s : State) (k : Nat) : Option UsageFault :=
  if s.halt then some .halted
  else if s.params.nCtx ≤ k then some .ctx
  else (s.ctx k).predictCheck s.params

theorem State.predictFault_of_runs {s : State} {k : Nat} (hh : s.halt = false) (hk : k < s.params.nCtx) :
    s.predictFault k = (s.ctx k).predictCheck s.params := by
  simp [State.predictFault, hh, Nat.not_le.mpr hk]

/-- SR_PREDICT raises the first check that fails, or takes its effect (R131, R140). -/
theorem exec_srPredict (ctx : BitVec 4) (x : Word32) (s : State) :
    exec (.srPredict ctx x) s =
      (s.predictFault ctx.toNat).elim
        (.next (answered (s.withCtx ctx.toNat ((s.ctx ctx.toNat).predicted s.params x))
          (okWord 0 ((s.ctx ctx.toNat).residual s.params x).toNat)))
        fun f => .next (usageFaulted s (encode (.srPredict ctx x)) f) := by
  simp only [exec, execSrPredict, onContext, State.predictFault, SrContext.predictCheck, raiseUsageFault_eq,
    respondOk_eq]
  split_ifs <;> rfl

/-- `Completes s i u r1 r0`: in `s` the command `i` completes with the results `r1` and `r0`, changing no
context, and leaves `u` but for the response. One constructor for each command that stores no context, with the
checks it has passed. -/
inductive Completes (s : State) : Instr → State → BitVec 20 → Word32 → Prop
  | nop : Completes s .nop s 0 0
  | csrRd {csr : Word16} {r : Csr} (hr : csrOf csr.toNat = some r) :
      Completes s (.csrRd csr) s 0 (s.csrValue r)
  | rcEncInit {len : Word16} (hh : s.halt = false) (hlen : len.toNat ≤ s.params.bufBytes) :
      Completes s (.rcEncInit len) (s.withSession .enc 0 len).withoutErr 0 0
  | rcDecInit {len : Word16} (hh : s.halt = false) (hlen : len.toNat ≤ s.params.bufBytes) :
      Completes s (.rcDecInit len) (s.withSession .dec (s.withSession .dec 0 len).seedBase len).withoutErr 0 0
  | rcEncode {base nsym sym : Word16} {bn : Word32} {low high : Word16} {n : Nat} {carry : Bool}
      (hh : s.halt = false) (hm : s.mode = .enc) (he : s.err = false)
      (hsym : sym.toNat < nsym.toNat) (hidx : base.toNat + nsym.toNat < s.params.cdfEntries)
      (hout : s.lenOutside = false)
      (hlow : low = s.params.cdf (base.toNat + sym.toNat))
      (hhigh : high = s.params.cdf (base.toNat + sym.toNat + 1)) (hlt : low.toNat < high.toNat)
      (hbn : bn = s.base + BitVec.ofNat 32 (s.rangeTimes low))
      (hcarry : carry = decide (bn.toNat < s.base.toNat)) (hroom : carry = true → s.carryBlocked = false)
      (hn : n = (renorm (s.widthProduct low high)).1) (hlen : s.ix.toNat + n ≤ s.len.toNat) :
      Completes s (.rcEncode base nsym sym)
        ((s.withBuf (emitBytes n bn s.ix.toNat (s.bufAfterCarry carry)).2).withCoder
          (emitBytes n bn s.ix.toNat (s.bufAfterCarry carry)).1 (renorm (s.widthProduct low high)).2
          (BitVec.ofNat 16 (s.ix.toNat + n))) 0 0
  | rcDecode {base nsym hint : Word16} {bn : Word32} {low high : Word16} {n sym : Nat}
      (hh : s.halt = false) (hm : s.mode = .dec) (he : s.err = false) (hnsym : nsym ≠ 0)
      (hidx : base.toNat + nsym.toNat < s.params.cdfEntries) (hout : s.lenOutside = false)
      (hfind : s.findSymbol base.toNat nsym.toNat = some sym)
      (hlow : low = s.params.cdf (base.toNat + sym)) (hhigh : high = s.params.cdf (base.toNat + sym + 1))
      (hbn : bn = s.base - BitVec.ofNat 32 (s.rangeTimes low))
      (hn : n = (renorm (s.widthProduct low high)).1) (hlen : s.ix.toNat + n ≤ s.len.toNat) :
      Completes s (.rcDecode base nsym hint)
        (s.withCoder (pullBytes s n bn s.ix.toNat) (renorm (s.widthProduct low high)).2
          (BitVec.ofNat 16 (s.ix.toNat + n))) 0 (BitVec.ofNat 32 sym)
  | rcGetLength (hh : s.halt = false) (hm : s.mode.inSession = true) :
      Completes s .rcGetLength s (s.rcBytes.setWidth 20) s.rcBits
  | rcEncWrapup {b nw : Nat} {b24 : Word32} {carry : Bool} {buf : Memory}
      (hh : s.halt = false) (hm : s.mode = .enc) (he : s.err = false) (hout : s.lenOutside = false)
      (hb : b = s.bitsToStore) (hnw : nw = if b ≤ 8 then 1 else 2) (hb24 : b24 = roundedBase s.base b)
      (hcarry : carry = b24.getLsbD 24) (hroom : carry = true → s.carryBlocked = false)
      (hlen : s.ix.toNat + nw ≤ s.len.toNat)
      (hbuf : buf = padLast s.epoch s.rcBits (s.ix.toNat + nw - 1)
        (storeRounded b24 b s.ix.toNat (s.bufAfterCarry carry))) :
      Completes s .rcEncWrapup ((s.withBuf buf).withFinished (BitVec.ofNat 16 (s.ix.toNat + nw)))
        (s.rcBytes.setWidth 20) s.rcBits
  | rcCheck (hh : s.halt = false) (hm : s.mode = .dec) (he : s.err = false) (hout : s.lenOutside = false)
      (hlen : s.rcBytes.toNat ≤ s.len.toNat)
      (hpad : s.rcBits.toNat % 8 ≠ 0 →
        s.bufByte (s.rcBytes.toNat - 1) &&& paddingMask s.rcBits = paddingMask s.rcBits) :
      Completes s .rcCheck s 0 0
  | bufRd {addr : Word16} (hh : s.halt = false) (ha : addr.toNat < s.params.bufBytes) :
      Completes s (.bufRd addr) s 0 ((s.bufByte addr.toNat).setWidth 32)
  | bufWr {addr : Word16} {byte : Byte} (hh : s.halt = false) (hm : s.mode ≠ .enc)
      (ha : addr.toNat < s.params.bufBytes) :
      Completes s (.bufWr addr byte) (s.withBuf (Memory.write addr.toNat byte s.buf)) 0 0
  | cdfRd {index : Word16} (hh : s.halt = false) (hi : index.toNat < s.params.cdfEntries) :
      Completes s (.cdfRd index) s 0 ((s.params.cdf index.toNat).setWidth 32)
  | srRd {ctx : BitVec 4} {reg : Word16} {r : SrReg} (hh : s.halt = false) (hk : ctx.toNat < s.params.nCtx)
      (hr : srRegOf s.params reg.toNat = some r) :
      Completes s (.srRd ctx reg) s 0 ((s.ctx ctx.toNat).readReg r)
  | srPeek {ctx : BitVec 4} {ring : BitVec 2} {k : BitVec 14} {r : RingId} {pos : Nat} (hh : s.halt = false)
      (hk : ctx.toNat < s.params.nCtx) (hr : ringPos s.params ring k = some (r, pos)) :
      Completes s (.srPeek ctx ring k) s 0 (ringPeek ((s.ctx ctx.toNat).ring r) pos)

/-- `Stores s i k x r0`: in `s` the command `i` stores `x` in context `k` and answers `r0`. -/
inductive Stores (s : State) : Instr → Nat → SrContext → Word32 → Prop
  | srClear {ctx : BitVec 4} : Stores s (.srClear ctx) ctx.toNat (SrContext.zero s.params) 0
  | srCopy {dst : BitVec 4} {src : Word16} (hsrc : src.toNat < s.params.nCtx) :
      Stores s (.srCopy dst src) dst.toNat (s.ctx src.toNat) 0
  | srWr {ctx : BitVec 4} {reg : Word16} {v : Word32} {r : SrReg} {x : SrContext}
      (hr : srRegOf s.params reg.toNat = some r) (hw : (s.ctx ctx.toNat).writeReg v r = some x) :
      Stores s (.srWr ctx reg v) ctx.toNat x.withoutPvalid 0
  | srPoke {ctx : BitVec 4} {ring : BitVec 2} {k : BitVec 14} {v : Word32} {r : RingId} {pos : Nat}
      (hr : ringPos s.params ring k = some (r, pos)) :
      Stores s (.srPoke ctx ring k v) ctx.toNat
        ((s.ctx ctx.toNat).withRing r (ringPoke ((s.ctx ctx.toNat).ring r) pos v)).withoutPvalid 0
  | srPredict {ctx : BitVec 4} {x : Word32} (hf : (s.ctx ctx.toNat).predictCheck s.params = none) :
      Stores s (.srPredict ctx x) ctx.toNat ((s.ctx ctx.toNat).predicted s.params x)
        ((s.ctx ctx.toNat).residual s.params x)
  | srCommit {ctx : BitVec 4} {q : Word32} (hp : (s.ctx ctx.toNat).pvalid = true) :
      Stores s (.srCommit ctx q) ctx.toNat ((s.ctx ctx.toNat).committed s.params q)
        ((s.ctx ctx.toNat).reconstructed q)

/-- What a command answers: a usage fault, which is UF_MODE exactly out of mode; the sticky error or a new RC
error of a command that is legal in one mode only; the RC error of an init with too great a length; or a
completion. -/
inductive Answers (i : Instr) (s : State) : State → Prop
  | fault (f : UsageFault) (hf : s.halt = false → (f = .mode ↔ s.mode ∉ legalModes i)) :
      Answers i s (usageFaulted s (encode i) f)
  | sticky (hh : s.halt = false) (hm : legalModes i = [s.mode]) (he : s.err = true) :
      Answers i s (answered s (errWord s.errCode.toNat))
  | raised (e : RcError) (hh : s.halt = false) (hm : legalModes i = [s.mode]) (he : s.err = false) :
      Answers i s (rcFailed s e.code.toNat)
  | encTooLong (len : Word16) (hi : i = .rcEncInit len) (hh : s.halt = false)
      (hlen : s.params.bufBytes < len.toNat) :
      Answers i s (rcFailed (s.withSession .enc 0 0) RcError.length.code.toNat)
  | decTooLong (len : Word16) (hi : i = .rcDecInit len) (hh : s.halt = false)
      (hlen : s.params.bufBytes < len.toNat) :
      Answers i s (rcFailed (s.withSession .dec 0 0) RcError.length.code.toNat)
  | completes (u : State) (r1 : BitVec 20) (r0 : Word32) (h : Completes s i u r1 r0) :
      Answers i s (answered u (okWord r1.toNat r0.toNat))
  | stores (k : Nat) (x : SrContext) (r0 : Word32) (hh : s.halt = false) (hk : k < s.params.nCtx)
      (h : Stores s i k x r0) :
      Answers i s (answered (s.withCtx k x) (okWord 0 r0.toNat))

/-! ### From the shared operations to `Answers` -/

/-- The list of all modes leaves none out. -/
theorem mem_allModes (m : RcMode) : m ∈ [RcMode.idle, .enc, .dec, .fin] := by
  cases m <;> decide

section

variable {i : Instr} {s t u : State}

theorem answers_of_respond {r1 : BitVec 20} {r0 : Word32} (h : respond .ok 0 r1 r0 u = .next t)
    (hc : Completes s i u r1 r0) : Answers i s t := by
  rw [respond_ok_eq] at h
  cases h
  exact .completes u r1 r0 hc

theorem answers_of_stores {k : Nat} {x : SrContext} {r0 : Word32}
    (h : respondOk r0 (s.withCtx k x) = .next t) (hh : s.halt = false) (hk : k < s.params.nCtx)
    (hs : Stores s i k x r0) : Answers i s t := by
  rw [respondOk_eq] at h
  cases h
  exact .stores k x r0 hh hk hs

theorem answers_of_raise {f : UsageFault} (h : raiseUsageFault (encode i) f s = .next t)
    (hf : s.halt = false → (f = .mode ↔ s.mode ∉ legalModes i)) : Answers i s t := by
  rw [raiseUsageFault_eq] at h
  cases h
  exact .fault f hf

/-- A fault of a command in a mode where it is legal. -/
theorem answers_of_raise_legal {f : UsageFault} (h : raiseUsageFault (encode i) f s = .next t)
    (hf : f ≠ .mode) (hm : s.mode ∈ legalModes i) : Answers i s t :=
  answers_of_raise h fun _ => iff_of_false hf (not_not_intro hm)

theorem answers_of_raiseRcError {e : RcError} (h : raiseRcError e s = .next t) (hh : s.halt = false)
    (hm : legalModes i = [s.mode]) (he : s.err = false) : Answers i s t := by
  rw [raiseRcError_eq] at h
  cases h
  exact .raised e hh hm he

/-- A command that a halted block refuses. -/
theorem answers_of_ite_halt {k : Out}
    (h : (if s.halt then raiseUsageFault (encode i) .halted s else k) = .next t)
    (hk : s.halt = false → k = .next t → Answers i s t) : Answers i s t := by
  split at h
  · next hh => exact answers_of_raise h fun hr => by simp [hr] at hh
  · next hh => exact hk (by simpa using hh) h

theorem answers_of_onContext {c : Nat} {k : SrContext → Out} (h : onContext (encode i) c s k = .next t)
    (hm : s.mode ∈ legalModes i)
    (hk : s.halt = false → c < s.params.nCtx → k (s.ctx c) = .next t → Answers i s t) : Answers i s t := by
  refine answers_of_ite_halt h fun hh h => ?_
  split at h
  · exact answers_of_raise_legal h (by decide) hm
  · next hc => exact hk hh (by omega) h

theorem answers_of_inMode {m : RcMode} {k : Out} (h : inMode (encode i) m s k = .next t)
    (hi : legalModes i = [m])
    (hk : s.halt = false → s.mode = m → s.err = false → k = .next t → Answers i s t) : Answers i s t := by
  refine answers_of_ite_halt h fun hh h => ?_
  split at h
  · next hm => exact answers_of_raise h fun _ => by simpa [hi] using hm
  · next hm =>
    have hm : s.mode = m := not_not.mp hm
    split at h
    · next he =>
      rw [refuseErr_eq] at h
      cases h
      exact .sticky hh (hm ▸ hi) he
    · next he => exact hk hh hm (by simpa using he) h

end

/-! ### Each command -/

section

variable {s t : State}

theorem csrRd_answers {csr : Word16} (h : execCsrRd csr s = .next t) : Answers (.csrRd csr) s t := by
  unfold execCsrRd at h
  split at h
  · exact answers_of_raise_legal h (by decide) (mem_allModes _)
  · next r hr => exact answers_of_respond h (.csrRd hr)

theorem rcEncInit_answers {len : Word16} (h : execRcEncInit len s = .next t) :
    Answers (.rcEncInit len) s t := by
  refine answers_of_ite_halt h fun hh h => ?_
  split at h
  · next hlen =>
    rw [raiseRcError_eq] at h
    cases h
    exact .encTooLong len rfl hh hlen
  · next hlen => exact answers_of_respond h (.rcEncInit hh (by omega))

theorem rcDecInit_answers {len : Word16} (h : execRcDecInit len s = .next t) :
    Answers (.rcDecInit len) s t := by
  refine answers_of_ite_halt h fun hh h => ?_
  split at h
  · next hlen =>
    rw [raiseRcError_eq] at h
    cases h
    exact .decTooLong len rfl hh hlen
  · next hlen => exact answers_of_respond h (.rcDecInit hh (by omega))

theorem rcEncode_answers {base nsym sym : Word16} (h : execRcEncode base nsym sym s = .next t) :
    Answers (.rcEncode base nsym sym) s t := by
  refine answers_of_inMode h rfl fun hh hm he h => ?_
  have hi : legalModes (.rcEncode base nsym sym) = [s.mode] := by rw [hm]; rfl
  have hmem : s.mode ∈ legalModes (.rcEncode base nsym sym) := by simp [hi]
  split_ifs at h with hsym hidx hcdf
  · exact answers_of_raise_legal h (by decide) hmem
  · exact answers_of_raise_legal h (by decide) hmem
  · exact answers_of_raise_legal h (by decide) hmem
  · obtain ⟨-, heq⟩ | ⟨-, -, -, heq⟩ | ⟨hlen, hroom, heq⟩ := encodeInterval_cases
      (encode (.rcEncode base nsym sym)) (s.params.cdf (base.toNat + sym.toNat))
      (s.params.cdf (base.toNat + sym.toNat + 1)) s
    · exact answers_of_raiseRcError (heq ▸ h) hh hi he
    · exact answers_of_raise_legal (heq ▸ h) (by decide) hmem
    · push Not at hsym hidx
      exact answers_of_respond (heq.symm.trans h) (.rcEncode hh hm he hsym.2 hidx.1 (by simpa using hidx.2) rfl rfl
        (by omega) rfl rfl hroom rfl hlen)

theorem rcDecode_answers {base nsym hint : Word16} (h : execRcDecode base nsym hint s = .next t) :
    Answers (.rcDecode base nsym hint) s t := by
  refine answers_of_inMode h rfl fun hh hm he h => ?_
  have hi : legalModes (.rcDecode base nsym hint) = [s.mode] := by rw [hm]; rfl
  have hmem : s.mode ∈ legalModes (.rcDecode base nsym hint) := by simp [hi]
  split_ifs at h with hnsym hidx
  · exact answers_of_raise_legal h (by decide) hmem
  · exact answers_of_raise_legal h (by decide) hmem
  · split at h
    · exact answers_of_raiseRcError h hh hi he
    · next sym hfind =>
      obtain ⟨-, heq⟩ | ⟨hlen, heq⟩ := decodeSymbol_cases base.toNat sym s
      · exact answers_of_raiseRcError (heq ▸ h) hh hi he
      · push Not at hidx
        exact answers_of_respond (heq.symm.trans h) (.rcDecode hh hm he hnsym hidx.1 (by simpa using hidx.2) hfind
          rfl rfl rfl rfl hlen)

/-- RC_GET_LENGTH is legal in a session. -/
theorem mem_legalModes_rcGetLength (m : RcMode) : m ∈ legalModes .rcGetLength ↔ m.inSession = true := by
  cases m <;> decide

theorem rcGetLength_answers (h : execRcGetLength s = .next t) : Answers .rcGetLength s t := by
  refine answers_of_ite_halt h fun hh h => ?_
  split at h
  · next hm => exact answers_of_respond h (.rcGetLength hh hm)
  · next hm =>
    exact answers_of_raise h fun _ => iff_of_true rfl ((mem_legalModes_rcGetLength _).not.mpr hm)

theorem rcEncWrapup_answers (h : execRcEncWrapup s = .next t) : Answers .rcEncWrapup s t := by
  refine answers_of_inMode h rfl fun hh hm he h => ?_
  have hi : legalModes .rcEncWrapup = [s.mode] := by rw [hm]; rfl
  have hmem : s.mode ∈ legalModes .rcEncWrapup := by simp [hi]
  split at h
  · exact answers_of_raise_legal h (by decide) hmem
  · next hout =>
    obtain ⟨-, heq⟩ | ⟨-, -, -, heq⟩ | ⟨hlen, hroom, heq⟩ := wrapUp_cases (encode .rcEncWrapup) s
    · exact answers_of_raiseRcError (heq ▸ h) hh hi he
    · exact answers_of_raise_legal (heq ▸ h) (by decide) hmem
    · exact answers_of_respond (heq ▸ h)
        (.rcEncWrapup hh hm he (by simpa using hout) rfl rfl rfl rfl hroom hlen rfl)

theorem rcCheck_answers (h : execRcCheck s = .next t) : Answers .rcCheck s t := by
  refine answers_of_inMode h rfl fun hh hm he h => ?_
  have hi : legalModes .rcCheck = [s.mode] := by rw [hm]; rfl
  split_ifs at h with hout hlen hpad
  · exact answers_of_raise_legal h (by decide) (by simp [hi])
  · exact answers_of_raiseRcError h hh hi he
  · exact answers_of_raiseRcError h hh hi he
  · push Not at hpad
    exact answers_of_respond h (.rcCheck hh hm he (by simpa using hout) (by omega) hpad)

theorem bufRd_answers {addr : Word16} (h : execBufRd addr s = .next t) : Answers (.bufRd addr) s t := by
  refine answers_of_ite_halt h fun hh h => ?_
  split at h
  · exact answers_of_raise_legal h (by decide) (mem_allModes _)
  · next ha => exact answers_of_respond h (.bufRd hh (by omega))

/-- BUF_WR is legal in every mode but `ENC`. -/
theorem mem_legalModes_bufWr (addr : Word16) (byte : Byte) (m : RcMode) :
    m ∈ legalModes (.bufWr addr byte) ↔ m ≠ .enc := by
  show m ∈ [RcMode.idle, .dec, .fin] ↔ m ≠ .enc
  cases m <;> decide

theorem bufWr_answers {addr : Word16} {byte : Byte} (h : execBufWr addr byte s = .next t) :
    Answers (.bufWr addr byte) s t := by
  refine answers_of_ite_halt h fun hh h => ?_
  have hl := mem_legalModes_bufWr addr byte s.mode
  split_ifs at h with hm ha
  · exact answers_of_raise h fun _ => iff_of_true rfl (hl.not.mpr (not_not_intro hm))
  · exact answers_of_raise_legal h (by decide) (hl.mpr hm)
  · exact answers_of_respond h (.bufWr hh hm (by omega))

theorem cdfRd_answers {index : Word16} (h : execCdfRd index s = .next t) : Answers (.cdfRd index) s t := by
  refine answers_of_ite_halt h fun hh h => ?_
  split at h
  · exact answers_of_raise_legal h (by decide) (mem_allModes _)
  · next hi => exact answers_of_respond h (.cdfRd hh (by omega))

theorem srRd_answers {ctx : BitVec 4} {reg : Word16} (h : execSrRd ctx reg s = .next t) :
    Answers (.srRd ctx reg) s t := by
  unfold execSrRd at h
  refine answers_of_onContext h (mem_allModes _) fun hh hk h => ?_
  split at h
  · exact answers_of_raise_legal h (by decide) (mem_allModes _)
  · next r hr => exact answers_of_respond h (.srRd hh hk hr)

theorem srWr_answers {ctx : BitVec 4} {reg : Word16} {v : Word32} (h : execSrWr ctx reg v s = .next t) :
    Answers (.srWr ctx reg v) s t := by
  unfold execSrWr at h
  refine answers_of_onContext h (mem_allModes _) fun hh hk h => ?_
  split at h
  · exact answers_of_raise_legal h (by decide) (mem_allModes _)
  · next r hr =>
    split at h
    · exact answers_of_raise_legal h (by decide) (mem_allModes _)
    · next x hx => exact answers_of_stores h hh hk (.srWr hr hx)

theorem srPeek_answers {ctx : BitVec 4} {ring : BitVec 2} {k : BitVec 14}
    (h : execSrPeek ctx ring k s = .next t) : Answers (.srPeek ctx ring k) s t := by
  unfold execSrPeek at h
  refine answers_of_onContext h (mem_allModes _) fun hh hk h => ?_
  split at h
  · exact answers_of_raise_legal h (by decide) (mem_allModes _)
  · next r pos hr => exact answers_of_respond h (.srPeek hh hk hr)

theorem srPoke_answers {ctx : BitVec 4} {ring : BitVec 2} {k : BitVec 14} {v : Word32}
    (h : execSrPoke ctx ring k v s = .next t) : Answers (.srPoke ctx ring k v) s t := by
  unfold execSrPoke at h
  refine answers_of_onContext h (mem_allModes _) fun hh hk h => ?_
  split at h
  · exact answers_of_raise_legal h (by decide) (mem_allModes _)
  · next r pos hr => exact answers_of_stores h hh hk (.srPoke hr)

/-- No check of SR_PREDICT is UF_MODE. -/
theorem SrContext.predictCheck_ne_mode (p : Params) (c : SrContext) : c.predictCheck p ≠ some .mode := by
  unfold SrContext.predictCheck
  split_ifs <;> simp

theorem srPredict_answers {ctx : BitVec 4} {x : Word32} (h : execSrPredict ctx x s = .next t) :
    Answers (.srPredict ctx x) s t := by
  have h : exec (.srPredict ctx x) s = .next t := h
  rw [exec_srPredict] at h
  cases hf : s.predictFault ctx.toNat with
  | some f =>
    rw [hf] at h
    cases h
    have hne : f ≠ .mode := by
      rintro rfl
      unfold State.predictFault at hf
      split_ifs at hf
      · cases hf
      · cases hf
      · exact SrContext.predictCheck_ne_mode _ _ hf
    exact .fault f fun _ => iff_of_false hne (not_not_intro (mem_allModes _))
  | none =>
    rw [hf] at h
    cases h
    unfold State.predictFault at hf
    split_ifs at hf with hh hk
    exact .stores _ _ _ (by simpa using hh) (by omega) (.srPredict hf)

theorem srCommit_answers {ctx : BitVec 4} {q : Word32} (h : execSrCommit ctx q s = .next t) :
    Answers (.srCommit ctx q) s t := by
  unfold execSrCommit at h
  refine answers_of_onContext h (mem_allModes _) fun hh hk h => ?_
  split at h
  · next hp => exact answers_of_stores h hh hk (.srCommit hp)
  · exact answers_of_raise_legal h (by decide) (mem_allModes _)

theorem srCopy_answers {dst : BitVec 4} {src : Word16} (h : execSrCopy dst src s = .next t) :
    Answers (.srCopy dst src) s t := by
  unfold execSrCopy at h
  refine answers_of_onContext h (mem_allModes _) fun hh hk h => ?_
  split at h
  · exact answers_of_raise_legal h (by decide) (mem_allModes _)
  · next hsrc => exact answers_of_stores h hh hk (.srCopy (by omega))

theorem srClear_answers {ctx : BitVec 4} (h : execSrClear ctx s = .next t) : Answers (.srClear ctx) s t := by
  unfold execSrClear at h
  exact answers_of_onContext h (mem_allModes _) fun hh hk h => answers_of_stores h hh hk .srClear

/-- What `exec` can answer, for every command. -/
theorem exec_answers {i : Instr} (h : exec i s = .next t) : Answers i s t := by
  cases i with
  | nop => exact answers_of_respond h .nop
  | csrRd csr => exact csrRd_answers h
  | rcEncInit len => exact rcEncInit_answers h
  | rcDecInit len => exact rcDecInit_answers h
  | rcEncode base nsym sym => exact rcEncode_answers h
  | rcDecode base nsym hint => exact rcDecode_answers h
  | rcGetLength => exact rcGetLength_answers h
  | rcEncWrapup => exact rcEncWrapup_answers h
  | rcCheck => exact rcCheck_answers h
  | bufRd addr => exact bufRd_answers h
  | bufWr addr byte => exact bufWr_answers h
  | cdfRd index => exact cdfRd_answers h
  | srClear ctx => exact srClear_answers h
  | srCopy dst src => exact srCopy_answers h
  | srRd ctx reg => exact srRd_answers h
  | srWr ctx reg value => exact srWr_answers h
  | srPeek ctx ring k => exact srPeek_answers h
  | srPoke ctx ring k value => exact srPoke_answers h
  | srPredict ctx x => exact srPredict_answers h
  | srCommit ctx q => exact srCommit_answers h

end

end Sys2Proof.Machine

/-! ## The CSR table (R40) -/

namespace Sys2Proof.Machine

open Sys2Proof.Claims

/-- The index column of R40. -/
def Csr.index : Csr → Nat
  | .id => 0x00
  | .version => 0x01
  | .status => 0x02
  | .faultInfoLo => 0x03
  | .faultInfoHi => 0x04
  | .rcBase => 0x08
  | .rcRange => 0x09
  | .rcIx => 0x0A
  | .rcLen => 0x0B
  | .capBufBytes => 0x10
  | .capCdfEntries => 0x11
  | .capNCtx => 0x12
  | .capRingDepth => 0x13
  | .capSlpcDepth => 0x14
  | .capOrd => 0x15

/-- The CSRs in the order of R40. -/
def allCsrs : List Csr :=
  [.id, .version, .status, .faultInfoLo, .faultInfoHi, .rcBase, .rcRange, .rcIx, .rcLen, .capBufBytes,
   .capCdfEntries, .capNCtx, .capRingDepth, .capSlpcDepth, .capOrd]

theorem mem_allCsrs (r : Csr) : r ∈ allCsrs := by
  cases r <;> decide

/-- The index column read backwards. -/
theorem csrOf_eq_some_iff (n : Nat) (r : Csr) : csrOf n = some r ↔ r.index = n := by
  constructor
  · intro h
    unfold csrOf at h
    split at h <;> cases h <;> rfl
  · rintro rfl
    cases r <;> rfl

/-- The parameters fit the fields they are reported in (R8, R40). -/
theorem Params.valid_fit {p : Params} (h : p.valid = true) :
    p.bufBytes < 2 ^ 16 ∧ p.cdfEntries < 2 ^ 17 ∧ p.nCtx < 2 ^ 5 ∧ p.ringDepth < 2 ^ 14 ∧
      p.slpcDepth < 2 ^ 14 ∧ p.lpcOrdMax < 2 ^ 8 ∧ p.shpOrdMax < 2 ^ 8 ∧ p.lpcOrdMin < 2 ^ 8 ∧
      p.shpOrdMin < 2 ^ 8 := by
  simp only [Params.valid, Bool.and_eq_true, decide_eq_true_eq] at h
  omega

theorem RcMode.code_toNat (m : RcMode) : m.code.toNat = modeNumber m := by
  cases m <;> rfl

/-- The fields of `STATUS` lie where R41 puts them. -/
theorem State.status_toNat (s : State) : s.status.toNat = statusNumber s := by
  simp only [State.status, statusNumber, append_toNat, RcMode.code_toNat, flagBit, BitVec.toNat_ofBool,
    BitVec.ofNat_eq_ofNat, BitVec.toNat_ofNat]
  omega

theorem modeNumber_lt (m : RcMode) : modeNumber m < 4 := by
  cases m <;> decide

/-- `MODE` can be read off `STATUS` (R30, R41). -/
theorem State.status_mode (s : State) : s.status.toNat / 4 % 4 = modeNumber s.mode := by
  have hm := modeNumber_lt s.mode
  have he := s.err.toNat_lt
  have hh := s.halt.toNat_lt
  rw [s.status_toNat, statusNumber]
  omega

/-- The number a CSR reads as: the contents column of the statement's table. -/
def State.csrNumber (s : State) : Csr → Nat
  | .id => 0x52435352
  | .version => 1
  | .status => statusNumber s
  | .faultInfoLo => s.faultInfo.toNat % 2 ^ 32
  | .faultInfoHi => s.faultInfo.toNat / 2 ^ 32
  | .rcBase => s.base.toNat
  | .rcRange => s.range.toNat
  | .rcIx => s.ix.toNat
  | .rcLen => s.len.toNat
  | .capBufBytes => s.params.bufBytes
  | .capCdfEntries => s.params.cdfEntries
  | .capNCtx => s.params.nCtx
  | .capRingDepth => s.params.ringDepth
  | .capSlpcDepth => s.params.slpcDepth
  | .capOrd => s.params.lpcOrdMax + 2 ^ 8 * s.params.shpOrdMax + 2 ^ 16 * s.params.lpcOrdMin
      + 2 ^ 24 * s.params.shpOrdMin

theorem mem_csrs_iff (s : State) (e : Nat × Nat) :
    e ∈ csrs s ↔ ∃ r : Csr, r.index = e.1 ∧ s.csrNumber r = e.2 := by
  have htable : csrs s = allCsrs.map fun r => (r.index, s.csrNumber r) := rfl
  simp only [htable, List.mem_map, mem_allCsrs, true_and, Prod.ext_iff]

/-- The register a CSR index names reads as the number of the table, of valid parameters. -/
theorem State.csrValue_toNat (s : State) (h : s.params.valid = true) (r : Csr) :
    (s.csrValue r).toNat = s.csrNumber r := by
  obtain ⟨hbuf, hcdf, hctx, hring, hslpc, hl, hs, hl', hs'⟩ := Params.valid_fit h
  have hinfo := s.faultInfo.isLt
  cases r with
  | status => exact s.status_toNat
  | id | version | rcBase => rfl
  | faultInfoLo | faultInfoHi =>
    simp only [State.csrValue, State.csrNumber, BitVec.extractLsb'_toNat, Nat.shiftRight_eq_div_pow]
    omega
  | rcRange | rcIx | rcLen => exact BitVec.toNat_setWidth_of_le (by decide)
  | capBufBytes | capCdfEntries | capNCtx | capRingDepth | capSlpcDepth =>
    simp only [State.csrValue, State.csrNumber, BitVec.toNat_setWidth, BitVec.toNat_ofNat]
    omega
  | capOrd =>
    simp only [State.csrValue, State.csrNumber, append_toNat, BitVec.toNat_ofNat]
    omega

/-- CSR_RD of an index in the table answers the register. -/
theorem exec_csrRd_of_some {csr : Word16} {r : Csr} (s : State) (h : csrOf csr.toNat = some r) :
    exec (.csrRd csr) s = .next (answered s (okWord 0 (s.csrValue r).toNat)) := by
  simp only [exec, execCsrRd, h, respondOk_eq]

/-- CSR_RD of any other index raises UF_ADDR. -/
theorem exec_csrRd_of_none {csr : Word16} (s : State) (h : csrOf csr.toNat = none) :
    exec (.csrRd csr) s = .next (usageFaulted s (encode (.csrRd csr)) .addr) := by
  simp only [exec, execCsrRd, h, raiseUsageFault_eq]

/-- Settles O23: the table of the statement is the index and contents columns of R40. -/
theorem csrReadsTheTable : Obligations.CsrReadsTheTable := by
  intro s csr hvalid
  refine ⟨fun e he hidx => ?_, fun hnone => ?_⟩
  · obtain ⟨r, hr, hnum⟩ := (mem_csrs_iff s e).mp he
    rw [exec_csrRd_of_some s ((csrOf_eq_some_iff _ r).mpr (hr.trans hidx)), s.csrValue_toNat hvalid, hnum]
  · have hcsr : csrOf csr.toNat = none := by
      refine Option.eq_none_iff_forall_ne_some.mpr fun r hr => ?_
      exact hnone (csr.toNat, s.csrNumber r)
        ((mem_csrs_iff s _).mpr ⟨r, (csrOf_eq_some_iff _ r).mp hr, rfl⟩) rfl
    exact exec_csrRd_of_none s hcsr

end Sys2Proof.Machine

/-! ## Modes (R30) -/

namespace Sys2Proof.Machine

open Sys2Proof.Claims

section

variable {i : Instr} {s t u : State} {r1 : BitVec 20} {r0 : Word32} {k : Nat} {x : SrContext}

/-- A command completes only in a mode where it is legal. -/
theorem Completes.mode_legal (h : Completes s i u r1 r0) : s.mode ∈ legalModes i := by
  cases h with
  | rcEncode _ hm | rcEncWrapup _ hm | rcDecode _ hm | rcCheck _ hm => exact List.mem_singleton.mpr hm
  | rcGetLength _ hm => exact (mem_legalModes_rcGetLength _).mpr hm
  | bufWr _ hm => exact (mem_legalModes_bufWr _ _ _).mpr hm
  | nop | csrRd | rcEncInit | rcDecInit | bufRd | cdfRd | srRd | srPeek => exact mem_allModes _

/-- The commands that store a context are legal in every mode. -/
theorem Stores.mode_legal (h : Stores s i k x r0) : s.mode ∈ legalModes i := by
  cases h <;> exact mem_allModes _

/-- Of the completions, only the inits and the wrap-up change the mode. -/
theorem Completes.mode_eq (h : Completes s i u r1 r0) :
    u.mode = s.mode ∨ ((∃ len, i = .rcEncInit len) ∧ u.mode = .enc) ∨
      ((∃ len, i = .rcDecInit len) ∧ u.mode = .dec) ∨
      (i = .rcEncWrapup ∧ s.mode = .enc ∧ u.mode = .fin) := by
  cases h with
  | rcEncInit => exact .inr (.inl ⟨⟨_, rfl⟩, rfl⟩)
  | rcDecInit => exact .inr (.inr (.inl ⟨⟨_, rfl⟩, rfl⟩))
  | rcEncWrapup _ hm => exact .inr (.inr (.inr ⟨rfl, hm, rfl⟩))
  | nop | csrRd | rcEncode | rcDecode | rcGetLength | rcCheck | bufRd | bufWr | cdfRd | srRd | srPeek =>
    exact .inl rfl

/-- Out of mode a running block raises UF_MODE. -/
theorem Answers.eq_faulted_of_illegal (h : Answers i s t) (hh : s.halt = false)
    (hm : s.mode ∉ legalModes i) : t = faulted s (encode i) 5 := by
  cases h with
  | fault f hf =>
    obtain rfl : f = .mode := (hf hh).mpr hm
    exact usageFaulted_of_running hh _ _
  | sticky _ hl | raised _ _ hl => simp [hl] at hm
  | encTooLong _ hi | decTooLong _ hi => subst hi; exact absurd (mem_allModes _) hm
  | completes _ _ _ hc => exact absurd hc.mode_legal hm
  | stores _ _ _ _ _ hs => exact absurd hs.mode_legal hm

/-- An answer that is not of class FAULT is not that of UF_MODE. -/
theorem ne_faultWord_mode_of_classOf_ne {word : Word64} (h : classOf word ≠ 2) : word ≠ faultWord 5 := by
  rintro rfl
  exact h rfl

/-- In a mode where the command is legal, a running block does not answer UF_MODE. -/
theorem Answers.resp_ne_of_legal (h : Answers i s t) (hh : s.halt = false) (hm : s.mode ∈ legalModes i) :
    t.resp ≠ some (faultWord 5) := by
  cases h with
  | fault f hf =>
    intro heq
    rw [usageFaulted_resp, Option.some.injEq, faultWord_code_eq_five_iff] at heq
    exact (hf hh).mp heq hm
  | sticky | raised | encTooLong | decTooLong | completes | stores =>
    simpa using ne_faultWord_mode_of_classOf_ne (by simp)

/-- Who changes the mode. -/
theorem Answers.mode_eq (h : Answers i s t) :
    t.mode = s.mode ∨ ((∃ len, i = .rcEncInit len) ∧ t.mode = .enc) ∨
      ((∃ len, i = .rcDecInit len) ∧ t.mode = .dec) ∨
      (i = .rcEncWrapup ∧ s.mode = .enc ∧ t.mode = .fin ∧ ∃ r, t.resp = some r ∧ classOf r = 0) := by
  cases h with
  | fault | sticky | raised | stores => exact .inl (by simp)
  | encTooLong len hi => exact .inr (.inl ⟨⟨len, hi⟩, rfl⟩)
  | decTooLong len hi => exact .inr (.inr (.inl ⟨⟨len, hi⟩, rfl⟩))
  | completes u r1 r0 hc =>
    obtain hu | hu | hu | ⟨hi, hs, hu⟩ := hc.mode_eq
    · exact .inl hu
    · exact .inr (.inl hu)
    · exact .inr (.inr (.inl hu))
    · exact .inr (.inr (.inr ⟨hi, hs, hu, _, rfl, classOf_okWord r1 r0⟩))

/-- A response of class OK is that of a completion. -/
theorem Answers.of_classOf_ok {r : Word64} (h : Answers i s t) (hr : t.resp = some r) (hok : classOf r = 0) :
    (∃ u r1 r0, Completes s i u r1 r0 ∧ t = answered u (okWord r1.toNat r0.toNat)) ∨
      ∃ k x r0, k < s.params.nCtx ∧ Stores s i k x r0 ∧ t = answered (s.withCtx k x) (okWord 0 r0.toNat) := by
  have hclass : t.resp.map classOf = some 0 := by simp [hr, hok]
  cases h with
  | fault | sticky | raised | encTooLong | decTooLong => simp at hclass
  | completes u r1 r0 hc => exact .inl ⟨u, r1, r0, hc, rfl⟩
  | stores k x r0 _ hk hs => exact .inr ⟨k, x, r0, hk, hs, rfl⟩

end

section

variable {s t : State} {len : Word16}

/-- RC_ENC_INIT enters `ENC` even where its length is refused (R101). -/
theorem exec_rcEncInit_mode (hh : s.halt = false) (h : exec (.rcEncInit len) s = .next t) : t.mode = .enc := by
  simp only [exec, execRcEncInit, hh, Bool.false_eq_true, if_false, raiseRcError_eq, respondOk_eq] at h
  split at h <;> cases h <;> rfl

/-- RC_DEC_INIT enters `DEC` even where its length is refused (R102). -/
theorem exec_rcDecInit_mode (hh : s.halt = false) (h : exec (.rcDecInit len) s = .next t) : t.mode = .dec := by
  simp only [exec, execRcDecInit, hh, Bool.false_eq_true, if_false, raiseRcError_eq, respondOk_eq] at h
  split at h <;> cases h <;> rfl

/-- A wrap-up that answers OK leaves `FIN` (R118). -/
theorem exec_rcEncWrapup_mode {r : Word64} (h : exec .rcEncWrapup s = .next t) (hr : t.resp = some r)
    (hok : classOf r = 0) : t.mode = .fin := by
  obtain ⟨u, r1, r0, hc, rfl⟩ | ⟨k, x, r0, -, hs, -⟩ := (exec_answers h).of_classOf_ok hr hok
  · cases hc; rfl
  · cases hs

end

/-- Settles O15, from what every command can answer. -/
theorem modesAreRespected : Obligations.ModesAreRespected := by
  intro i s t hh h
  have ha := exec_answers h
  refine ⟨ha.eq_faulted_of_illegal hh, ha.resp_ne_of_legal hh, fun hne => ha.mode_eq.resolve_left hne,
    ?_, ?_, ?_, s.status_mode⟩
  · rintro len rfl; exact exec_rcEncInit_mode hh h
  · rintro len rfl; exact exec_rcDecInit_mode hh h
  · rintro rfl ⟨r, hr, hok⟩; exact exec_rcEncWrapup_mode h hr hok

end Sys2Proof.Machine

/-! ## Reset (R57) -/

namespace Sys2Proof.Machine

open Sys2Proof.Claims

@[simp] theorem tap_replicate_zero (n k : Nat) : tap (List.replicate n 0#16) k = 0 := by
  by_cases h : k < n <;> simp [tap, List.getD_eq_getElem?_getD, h]

/-- Every register of a zero context reads 0. -/
theorem regs_zero (p : Params) : ∀ e ∈ regs p (SrContext.zero p), e.2 = 0 := by
  simp [regs, SrContext.zero, or_imp, forall_and]

/-- SR_CLEAR of an existing context stores the zero context (R147). -/
theorem exec_srClear_runs {ctx : BitVec 4} {s : State} (hh : s.halt = false) (hk : ctx.toNat < s.params.nCtx) :
    exec (.srClear ctx) s =
      .next (answered (s.withCtx ctx.toNat (SrContext.zero s.params)) (okWord 0 0)) := by
  simp only [exec, execSrClear, onContext_runs _ _ _ _ hh hk, respondOk_eq]
  rfl

/-- A least order above 0 makes SR_PREDICT refuse a zero context (R131). -/
theorem SrContext.predictCheck_zero {p : Params} (h : 0 < p.lpcOrdMin ∨ 0 < p.shpOrdMin) :
    (SrContext.zero p).predictCheck p = some .order := by
  have hord (lo hi : Nat) (hlo : 0 < lo) : orderLegal lo hi 0#8 = false := by
    simp [orderLegal, Nat.not_le.mpr hlo]
  obtain hl | hs := h
  · simp [SrContext.predictCheck, SrContext.zero, hord _ _ hl]
  · simp [SrContext.predictCheck, SrContext.zero, hord _ _ hs]

/-- Where a check of SR_PREDICT on the context fails, a running block raises its fault. -/
theorem exec_srPredict_of_check {ctx : BitVec 4} {s : State} {f : UsageFault} (x : Word32) (hh : s.halt = false)
    (hk : ctx.toNat < s.params.nCtx) (hf : (s.ctx ctx.toNat).predictCheck s.params = some f) :
    exec (.srPredict ctx x) s = .next (faulted s (encode (.srPredict ctx x)) f.code.toNat) := by
  rw [exec_srPredict, State.predictFault_of_runs hh hk, hf, Option.elim_some, usageFaulted_of_running hh]

/-- A step with a reset at the port resets the block. -/
theorem step_of_reset {s : State} {rest : List HostEvent} (h : s.port = .reset :: rest) :
    step s = .next (s.withPort rest).resetBlock := by
  simp only [step, h, takeEvent]

/-- Settles O6: the values of the table are those of `State.afterReset`; what remains is what the commands
make of a zero context. -/
theorem resetLeavesTheTable : Obligations.ResetLeavesTheTable := by
  intro s rest hport
  refine ⟨_, step_of_reset hport, rfl, rfl, rfl, rfl, rfl, rfl, rfl, rfl, rfl, rfl, fun _ => rfl, rfl, ?_, ?_, ?_⟩
  · simp
  · intro c hc
    obtain rfl : c = SrContext.zero s.params := by simpa using List.eq_of_mem_replicate hc
    refine ⟨regs_zero _, rfl, rfl, rfl, fun u v ctx hparams hh hlen hk hv => ?_⟩
    have hparams : u.params = s.params := hparams
    rw [exec_srClear_runs hh (hparams ▸ hk)] at hv
    cases hv
    have hk : ctx.toNat < u.sr.length := hlen ▸ hk
    simp [hk, hparams]
  · intro ctx x hmin hk
    have hctx : (s.withPort rest).resetBlock.ctx ctx.toNat = SrContext.zero s.params :=
      State.ctx_of_getElem? (by simpa [List.getElem?_replicate] using hk)
    have hcheck := hctx ▸ SrContext.predictCheck_zero hmin
    rw [exec_srPredict_of_check x rfl hk hcheck]
    rfl

end Sys2Proof.Machine

/-! ## `PVALID` and the latches (R55) -/

namespace Sys2Proof.Machine

open Sys2Proof.Claims

/-- A completion that stores no context leaves every context. -/
theorem Completes.sr_eq {s u : State} {i : Instr} {r1 : BitVec 20} {r0 : Word32} (h : Completes s i u r1 r0) :
    u.sr = s.sr := by
  cases h <;> rfl

/-- After any command, an existing context is as it was, or the one the command stores. -/
theorem exec_ctx_cases {i : Instr} {s t : State} {j : Nat} {c c' : SrContext} (h : exec i s = .next t)
    (hc : s.sr[j]? = some c) (hc' : t.sr[j]? = some c') : c' = c ∨ ∃ r0, Stores s i j c' r0 := by
  cases exec_answers h with
  | fault | sticky | raised | encTooLong | decTooLong => exact .inl (by simpa [hc, eq_comm] using hc')
  | completes u r1 r0 hd => exact .inl (by simpa [hd.sr_eq, hc, eq_comm] using hc')
  | stores k x r0 _ _ hs =>
    have hx := State.withCtx_getElem? hc hc'
    split at hx
    · next hkj => subst hkj hx; exact .inr ⟨r0, hs⟩
    · exact .inl hx

/-- The latches of R54 are the same in two contexts. -/
def SameLatches (c c' : SrContext) : Prop :=
  c' = { c' with lLpc := c.lLpc, lLtp := c.lLtp, lNar := c.lNar, lNlf := c.lNlf, lNltp := c.lNltp,
                 lDither := c.lDither, lR := c.lR }

theorem SrContext.writeReg_sameLatches {c x : SrContext} {v : Word32} {r : SrReg}
    (h : c.writeReg v r = some x) : SameLatches c x := by
  cases r <;> cases h <;> rfl

theorem SrContext.withRing_sameLatches (c : SrContext) (r : RingId) (cells : List Word32) :
    SameLatches c (c.withRing r cells) := by
  cases r <;> rfl

theorem SameLatches.withoutPvalid {c x : SrContext} (h : SameLatches c x) : SameLatches c x.withoutPvalid := by
  unfold SameLatches at h ⊢
  rw [h]
  rfl

/-- Among the commands that store a context, SR_WR, SR_POKE and SR_COMMIT keep the latches. -/
theorem Stores.sameLatches {i : Instr} {s : State} {k : Nat} {x : SrContext} {r0 : Word32}
    (h : Stores s i k x r0) (hpredict : ∀ ctx x, i ≠ .srPredict ctx x) (hclear : ∀ ctx, i ≠ .srClear ctx)
    (hcopy : ∀ dst src, i ≠ .srCopy dst src) : SameLatches (s.ctx k) x := by
  cases h with
  | srWr _ hw => exact (SrContext.writeReg_sameLatches hw).withoutPvalid
  | srPoke => exact (SrContext.withRing_sameLatches _ _ _).withoutPvalid
  | srCommit => rfl
  | srPredict => exact absurd rfl (hpredict _ _)
  | srClear => exact absurd rfl (hclear _)
  | srCopy => exact absurd rfl (hcopy _ _)

/-- SR_PREDICT passes its checks only with `PVALID` clear. -/
theorem SrContext.pvalid_of_predictCheck {p : Params} {c : SrContext} (h : c.predictCheck p = none) :
    c.pvalid = false := by
  unfold SrContext.predictCheck at h
  split at h
  · cases h
  · next hp => simpa using hp

theorem SrContext.predictCheck_of_pvalid {p : Params} {c : SrContext} (h : c.pvalid = true) :
    c.predictCheck p = some .seq := by
  simp [SrContext.predictCheck, h]

/-- SR_COMMIT without a prediction raises UF_SEQ (R141). -/
theorem exec_srCommit_unpaired {ctx : BitVec 4} {s : State} (q : Word32) (hh : s.halt = false)
    (hk : ctx.toNat < s.params.nCtx) (hp : (s.ctx ctx.toNat).pvalid = false) :
    exec (.srCommit ctx q) s = .next (faulted s (encode (.srCommit ctx q)) 10) := by
  simp only [exec, execSrCommit, onContext_runs _ _ _ _ hh hk, hp, raiseUsageFault_eq,
    usageFaulted_of_running hh]
  rfl

/-- A conditional whose first branch is weakened. -/
theorem ite_of_ite {p a b d : Prop} [Decidable p] (h : if p then a else d) (hab : p → a → b) :
    if p then b else d := by
  split at h
  · next hp => exact (if_pos hp).symm ▸ hab hp h
  · next hp => exact (if_neg hp).symm ▸ h

/-- Settles O53: each clause reads off what the commands that store a context store. -/
theorem pvalidPairsPredictAndCommit : Obligations.PvalidPairsPredictAndCommit := by
  refine ⟨fun s ctx w c hh hk hc => ⟨fun hp => ?_, fun hp => ?_⟩,
    fun i s t j c c' h hc hc' hpredict hclear hcopy => ?_, fun i s t j c c' r hlen h hr hok hc hc' => ?_⟩
  · rw [← State.ctx_of_getElem? hc] at hp
    rw [exec_srPredict_of_check w hh hk (SrContext.predictCheck_of_pvalid hp)]
    rfl
  · rw [← State.ctx_of_getElem? hc] at hp
    exact exec_srCommit_unpaired w hh hk hp
  · obtain rfl | ⟨r0, hs⟩ := exec_ctx_cases h hc hc'
    · rfl
    · exact State.ctx_of_getElem? hc ▸ hs.sameLatches hpredict hclear hcopy
  · have hctx := State.ctx_of_getElem? hc
    obtain ⟨u, r1, r0, hd, rfl⟩ | ⟨k, x, r0, hk, hs, rfl⟩ := (exec_answers h).of_classOf_ok hr hok
    · have heq : c' = c := by simpa [hd.sr_eq, hc, eq_comm] using hc'
      cases hd <;> exact heq
    · have hx := State.withCtx_getElem? hc hc'
      cases hs with
      | srPredict hf =>
        exact ite_of_ite hx fun hj hx => ⟨SrContext.pvalid_of_predictCheck (hctx ▸ hj ▸ hf), hx ▸ rfl⟩
      | srCommit hp => exact ite_of_ite hx fun hj hx => ⟨hctx ▸ hj ▸ hp, hx ▸ rfl⟩
      | srWr | srPoke | srClear => exact ite_of_ite hx fun _ hx => hx ▸ rfl
      | srCopy hsrc => exact ite_of_ite hx fun _ hx => hx ▸ State.getElem?_of_lt (hlen ▸ hsrc)

end Sys2Proof.Machine

/-! ## Coefficient registers (R48) -/

namespace Sys2Proof.Machine

open Sys2Proof.Claims

/-- The coefficient registers are the same in two contexts. -/
def SameCoefs (c c' : SrContext) : Prop :=
  c' = { c' with a := c.a, ar := c.ar, b := c.b, harm := c.harm, tilt := c.tilt, lf := c.lf,
                 offset := c.offset, lpcOrd := c.lpcOrd, shpOrd := c.shpOrd, voiced := c.voiced,
                 lag := c.lag }

theorem SrContext.poked_sameCoefs (c : SrContext) (r : RingId) (cells : List Word32) :
    SameCoefs c (c.withRing r cells).withoutPvalid := by
  cases r <;> rfl

/-- Among the commands that store a context, SR_PREDICT, SR_COMMIT and SR_POKE keep the coefficients. -/
theorem Stores.sameCoefs {i : Instr} {s : State} {k : Nat} {x : SrContext} {r0 : Word32}
    (h : Stores s i k x r0) (hwr : ∀ ctx reg v, i ≠ .srWr ctx reg v) (hclear : ∀ ctx, i ≠ .srClear ctx)
    (hcopy : ∀ dst src, i ≠ .srCopy dst src) : SameCoefs (s.ctx k) x := by
  cases h with
  | srPoke => exact SrContext.poked_sameCoefs _ _ _
  | srPredict => rfl
  | srCommit => rfl
  | srWr => exact absurd rfl (hwr _ _ _)
  | srClear => exact absurd rfl (hclear _)
  | srCopy => exact absurd rfl (hcopy _ _)

/-- A context with other taps, `HARM` and `LAG`. -/
def SrContext.withTaps (c : SrContext) (a ar b : List Word16) (harm : Word32) (lag : Word16) : SrContext :=
  { c with a := a, ar := ar, b := b, harm := harm, lag := lag }

section

variable {c : SrContext} {a ar b : List Word16} {harm : Word32} {lag : Word16}

theorem tapWord_congr {taps taps' : List Word16} {k : Nat} (h : tap taps k = tap taps' k) :
    tapWord taps k = tapWord taps' k :=
  congrArg (BitVec.signExtend 32) (BitVec.eq_of_toInt_eq h)

theorem SrContext.withTaps_termLpc (ha : ∀ k, k < c.lpcOrd.toNat → tap a k = tap c.a k) :
    (c.withTaps a ar b harm lag).termLpc = c.termLpc :=
  sum32_congr _ _ _ fun j hj => congrArg (smulwb _) (tapWord_congr (ha j hj))

theorem SrContext.withTaps_termNar (har : ∀ k, k < c.shpOrd.toNat → tap ar k = tap c.ar k) :
    (c.withTaps a ar b harm lag).termNar = c.termNar :=
  congrArg (fun sum : Word32 => sum.sshiftRight 1 + smulwb c.lfar (c.tilt.signExtend 32))
    (sum32_congr _ _ _ fun j hj => congrArg (smulwb _) (tapWord_congr (har j hj)))

theorem SrContext.withTaps_termLtp (hv : c.voiced = true → b = c.b ∧ harm = c.harm ∧ lag = c.lag) :
    (c.withTaps a ar b harm lag).termLtp = c.termLtp := by
  cases hc : c.voiced
  · simp [termLtp, withTaps, hc]
  · obtain ⟨rfl, -, rfl⟩ := hv hc
    rfl

theorem SrContext.withTaps_termNltp (hv : c.voiced = true → b = c.b ∧ harm = c.harm ∧ lag = c.lag) :
    (c.withTaps a ar b harm lag).termNltp = c.termNltp := by
  cases hc : c.voiced
  · simp [termNltp, withTaps, hc]
  · obtain ⟨-, rfl, rfl⟩ := hv hc
    rfl

theorem SrContext.withTaps_predictCheck (p : Params)
    (hv : c.voiced = true → b = c.b ∧ harm = c.harm ∧ lag = c.lag) :
    (c.withTaps a ar b harm lag).predictCheck p = c.predictCheck p := by
  cases hc : c.voiced
  · simp [predictCheck, withTaps, hc]
  · obtain ⟨-, -, rfl⟩ := hv hc
    rfl

theorem SrContext.withTaps_residual (p : Params) (x : Word32)
    (ha : ∀ k, k < c.lpcOrd.toNat → tap a k = tap c.a k)
    (har : ∀ k, k < c.shpOrd.toNat → tap ar k = tap c.ar k)
    (hv : c.voiced = true → b = c.b ∧ harm = c.harm ∧ lag = c.lag) :
    (c.withTaps a ar b harm lag).residual p x = c.residual p x := by
  have ht : (c.withTaps a ar b harm lag).prediction = c.prediction := by
    rw [prediction, withTaps_termLpc ha, withTaps_termNar har, withTaps_termLtp hv, withTaps_termNltp hv]
    rfl
  rw [residual, ht]
  rfl

/-- SR_PREDICT carries the registers it does not read along unread. -/
theorem SrContext.withTaps_predicted (p : Params) (x : Word32)
    (ha : ∀ k, k < c.lpcOrd.toNat → tap a k = tap c.a k)
    (har : ∀ k, k < c.shpOrd.toNat → tap ar k = tap c.ar k)
    (hv : c.voiced = true → b = c.b ∧ harm = c.harm ∧ lag = c.lag) :
    (c.withTaps a ar b harm lag).predicted p x = (c.predicted p x).withTaps a ar b harm lag := by
  rw [predicted, withTaps_termLpc ha, withTaps_termNar har, withTaps_termLtp hv, withTaps_termNltp hv,
    withTaps_residual p x ha har hv]
  rfl

end

/-- A usage fault neither reads nor writes a context. -/
theorem usageFaulted_withCtx (s : State) (k : Nat) (x : SrContext) (word : Word64) (f : UsageFault) :
    usageFaulted (s.withCtx k x) word f = (usageFaulted s word f).withCtx k x := by
  cases h : s.halt <;> simp [usageFaulted, h] <;> rfl

/-- The checks of SR_PREDICT see another context only through `predictCheck`. -/
theorem State.predictFault_withCtx {s : State} {k : Nat} {c x : SrContext} (hc : s.sr[k]? = some c)
    (hx : x.predictCheck s.params = c.predictCheck s.params) :
    (s.withCtx k x).predictFault k = s.predictFault k := by
  obtain ⟨hk, -⟩ := List.getElem?_eq_some_iff.mp hc
  simp [State.predictFault, State.ctx_withCtx_same s k x hk, State.ctx_of_getElem? hc, hx]

theorem State.withCtx_withCtx (s : State) (k : Nat) (x y : SrContext) :
    (s.withCtx k x).withCtx k y = s.withCtx k y := by
  simp [State.withCtx]

/-- SR_PREDICT on a context whose unread registers differ does the same and leaves them. -/
theorem exec_srPredict_withTaps {s t : State} {ctx : BitVec 4} {x : Word32} {c c' : SrContext}
    {a ar b : List Word16} {harm : Word32} {lag : Word16} (hc : s.sr[ctx.toNat]? = some c)
    (ha : ∀ k, k < c.lpcOrd.toNat → tap a k = tap c.a k)
    (har : ∀ k, k < c.shpOrd.toNat → tap ar k = tap c.ar k)
    (hv : c.voiced = true → b = c.b ∧ harm = c.harm ∧ lag = c.lag)
    (h : exec (.srPredict ctx x) s = .next t) (hc' : t.sr[ctx.toNat]? = some c') :
    exec (.srPredict ctx x) (s.withCtx ctx.toNat (c.withTaps a ar b harm lag)) =
      .next (t.withCtx ctx.toNat (c'.withTaps a ar b harm lag)) := by
  obtain ⟨hk, -⟩ := List.getElem?_eq_some_iff.mp hc
  have hctx := State.ctx_of_getElem? hc
  rw [exec_srPredict] at h ⊢
  rw [State.predictFault_withCtx hc (SrContext.withTaps_predictCheck _ hv)]
  cases hf : s.predictFault ctx.toNat with
  | some f =>
    rw [hf] at h
    cases h
    obtain rfl : c' = c := by simpa [hc, eq_comm] using hc'
    simp [usageFaulted_withCtx]
  | none =>
    rw [hf] at h
    cases h
    obtain rfl : c' = c.predicted s.params x := by simpa [hk, hctx, eq_comm] using hc'
    simp only [Option.elim_none, State.ctx_withCtx_same s _ _ hk, State.withCtx_params, hctx,
      SrContext.withTaps_predicted _ _ ha har hv, SrContext.withTaps_residual _ _ ha har hv,
      State.withCtx_withCtx]
    simp [answered, State.withCtx]

/-- Settles O54: the first clause from what the commands store, the second because every term of the
prediction is the same. -/
theorem coefficientsAreInputs : Obligations.CoefficientsAreInputs := by
  refine ⟨fun i s t j c c' h hwr hclear hcopy hc hc' => ?_,
    fun s t ctx x c c' a ar b harm lag hc ha har hv h hc' => exec_srPredict_withTaps hc ha har hv h hc'⟩
  obtain rfl | ⟨r0, hs⟩ := exec_ctx_cases h hc hc'
  · rfl
  · exact State.ctx_of_getElem? hc ▸ hs.sameCoefs hwr hclear hcopy

end Sys2Proof.Machine

/-! ## The encoding (R80 to R90)

Each row of the statements' table against the decoder, the fields of a word as the statements read them, and the
one word of each command. -/

namespace Sys2Proof.Machine

open Sys2Proof.Claims

/-! ### Fields of a word -/

@[simp] theorem splitFields_encode (i : Instr) : splitFields (encode i) = encodeFields i :=
  splitFields_joinFields _

theorem splitFields_inj {v w : Word64} : splitFields v = splitFields w ↔ v = w := by
  refine ⟨fun h => ?_, congrArg _⟩
  rw [← joinFields_splitFields v, h, joinFields_splitFields]

theorem opcOf_eq (w : Word64) : opcOf w = (splitFields w).opc.toNat := by
  have hw := w.isLt
  simp only [opcOf, splitFields, BitVec.extractLsb'_toNat, Nat.shiftRight_eq_div_pow]
  omega

theorem ctxOf_eq (w : Word64) : ctxOf w = (splitFields w).ctx.toNat := by
  simp only [ctxOf, splitFields, BitVec.extractLsb'_toNat, Nat.shiftRight_eq_div_pow]

theorem aOf_eq (w : Word64) : aOf w = (splitFields w).a.toNat := by
  simp only [aOf, splitFields, BitVec.extractLsb'_toNat, Nat.shiftRight_eq_div_pow]

theorem opcOf_encode (i : Instr) : opcOf (encode i) = (encodeFields i).opc.toNat := by
  rw [opcOf_eq, splitFields_encode]

theorem ctxOf_encode (i : Instr) : ctxOf (encode i) = (encodeFields i).ctx.toNat := by
  rw [ctxOf_eq, splitFields_encode]

theorem aOf_encode (i : Instr) : aOf (encode i) = (encodeFields i).a.toNat := by
  rw [aOf_eq, splitFields_encode]

theorem splitFields_and (w m : Word64) :
    splitFields (w &&& m) =
      ⟨(splitFields w).opc &&& (splitFields m).opc, (splitFields w).ctx &&& (splitFields m).ctx,
        (splitFields w).rsv &&& (splitFields m).rsv, (splitFields w).a &&& (splitFields m).a,
        (splitFields w).w &&& (splitFields m).w⟩ := by
  simp only [splitFields, BitVec.extractLsb'_and]

/-- A word has no bit of a mask set exactly if no field of it has. -/
theorem and_eq_zero_iff_fields (w m : Word64) :
    w &&& m = 0 ↔ (splitFields w).opc &&& (splitFields m).opc = 0 ∧
      (splitFields w).ctx &&& (splitFields m).ctx = 0 ∧ (splitFields w).rsv &&& (splitFields m).rsv = 0 ∧
      (splitFields w).a &&& (splitFields m).a = 0 ∧ (splitFields w).w &&& (splitFields m).w = 0 := by
  have hzero : splitFields 0 = ⟨0, 0, 0, 0, 0⟩ := by decide
  rw [← splitFields_inj, splitFields_and, hzero, CmdFields.mk.injEq]

/-- The unused bits of `W` in BUF_WR: all above the byte (R83). -/
theorem and_mask24_eq_zero_iff (w : Word32) : w &&& 0xFFFFFF00 = 0 ↔ w.extractLsb' 8 24 = 0 := by
  have hparts (v : Word32) : v = 0 ↔ v.extractLsb' 8 24 = 0 ∧ v.extractLsb' 0 8 = 0 := by
    simp only [← BitVec.toNat_inj, BitVec.extractLsb'_toNat, Nat.shiftRight_eq_div_pow,
      BitVec.ofNat_eq_ofNat, BitVec.toNat_ofNat]
    omega
  have hhigh : (0xFFFFFF00 : Word32).extractLsb' 8 24 = BitVec.allOnes 24 := by decide
  have hlow : (0xFFFFFF00 : Word32).extractLsb' 0 8 = 0 := by decide
  rw [hparts, BitVec.extractLsb'_and, BitVec.extractLsb'_and, hhigh, hlow, BitVec.and_allOnes]
  simp

/-! ### The decoder, by rows of the table -/

theorem ifZero_eq_ok {zero : Bool} {i j : Instr} (h : ifZero zero i = .ok j) : zero = true ∧ i = j := by
  unfold ifZero at h
  split at h
  · next hz => exact ⟨hz, Except.ok.inj h⟩
  · cases h

/-- A word with the opcode of a row decodes exactly if the bits the row does not use are zero (R82). -/
theorem decode_of_row {w : Word64} {row : Nat × Word64} (hrow : row ∈ unusedBits) (hopc : opcOf w = row.1) :
    ∃ i, decode w = ifZero (decide (w &&& row.2 = 0)) i := by
  have h4 (x : BitVec 4) : x &&& 15#4 = x := BitVec.and_allOnes
  have h16 (x : BitVec 16) : x &&& 65535#16 = x := BitVec.and_allOnes
  have h32 (x : BitVec 32) : x &&& 4294967295#32 = x := BitVec.and_allOnes
  have h24 (x : BitVec 32) : x &&& 4294967040#32 = 0#32 ↔ x.extractLsb' 8 24 = 0#24 := and_mask24_eq_zero_iff x
  rw [opcOf_eq] at hopc
  simp only [and_eq_zero_iff_fields, decode]
  generalize splitFields w = f at hopc
  simp only [unusedBits, List.mem_cons, List.not_mem_nil, or_false] at hrow
  rcases hrow with rfl | rfl | rfl | rfl | rfl | rfl | rfl | rfl | rfl | rfl | rfl | rfl | rfl | rfl | rfl | rfl |
    rfl | rfl | rfl | rfl
  all_goals
    simp only [decodeFields, hopc]
    refine ⟨_, congrArg (ifZero · _) (Bool.eq_iff_iff.mpr ?_)⟩
    simp [splitFields, h4, h16, h32, h24, and_assoc]

theorem decode_of_legalWord {w : Word64} (h : legalWord w) : ∃ i, decode w = .ok i := by
  obtain ⟨row, hrow, hopc, hzero⟩ := h
  obtain ⟨i, hi⟩ := decode_of_row hrow hopc
  exact ⟨i, by rw [hi, decide_eq_true hzero]; rfl⟩

theorem decode_of_unused {w : Word64} {row : Nat × Word64} (hrow : row ∈ unusedBits) (hopc : opcOf w = row.1)
    (hset : w &&& row.2 ≠ 0) : decode w = .error .field := by
  obtain ⟨i, hi⟩ := decode_of_row hrow hopc
  rw [hi, decide_eq_false hset]
  rfl

theorem decode_of_unassigned {w : Word64} (h : ∀ row ∈ unusedBits, opcOf w ≠ row.1) :
    decode w = .error .opcode := by
  simp only [unusedBits, List.forall_mem_cons, opcOf_eq] at h
  unfold decode decodeFields
  dsimp only
  split
  case h_21 => rfl
  all_goals next hopc => simp [hopc] at h

/-! ### The one word of a command -/

theorem encodeFields_of_decodeFields {f : CmdFields} {i : Instr} (h : decodeFields f = .ok i) :
    encodeFields i = f := by
  obtain ⟨opc, ctx, rsv, a, w⟩ := f
  have hhalves : w.extractLsb' 16 16 ++ w.extractLsb' 0 16 = w := BitVec.extractLsb'_append_extractLsb'
  have hring : a.extractLsb' 14 2 ++ a.extractLsb' 0 14 = a := BitVec.extractLsb'_append_extractLsb'
  have hbyte : w.extractLsb' 8 24 = 0 → 0#24 ++ w.extractLsb' 0 8 = w := fun hz => by
    have hparts : w.extractLsb' 8 24 ++ w.extractLsb' 0 8 = w := BitVec.extractLsb'_append_extractLsb'
    rwa [hz] at hparts
  unfold decodeFields at h
  dsimp only at h
  split at h
  case h_21 => cases h
  all_goals
    next hopc =>
    obtain ⟨hzero, rfl⟩ := ifZero_eq_ok h
    simp only [Bool.and_eq_true, beq_iff_eq] at hzero
    simp [hzero, encodeFields, BitVec.toNat_eq (y := opc), hopc, hhalves, hring, hbyte]

/-- A word that decodes is the word of its command (R90). -/
theorem encode_of_decode {w : Word64} {i : Instr} (h : decode w = .ok i) : encode i = w := by
  rw [encode, encodeFields_of_decodeFields h, joinFields_splitFields]

/-- The third row of R88, in the words of the statements. -/
theorem wellFormed_eq_false_iff (p : Params) (i : Instr) :
    i.wellFormed p = false ↔ usesCtx (encode i) ∧
      (p.nCtx ≤ ctxOf (encode i) ∨ (opcOf (encode i) = 0x21 ∧ p.nCtx ≤ aOf (encode i))) := by
  simp only [usesCtx, opcOf_encode, ctxOf_encode, aOf_encode]
  cases i
  case srCopy dst src =>
    simp [Instr.wellFormed, encodeFields]
    omega
  all_goals simp [Instr.wellFormed, encodeFields]

/-! ### Presenting a word -/

theorem presentWord_of_ok {w : Word64} {i : Instr} (h : decode w = .ok i) (s : State) :
    presentWord w s = exec i s := by
  simp only [presentWord, h]

/-- A word that does not decode raises a usage fault, on a halted block UF_HALTED unless the opcode is accepted
(R197, R198). -/
theorem presentWord_of_error {w : Word64} {e : DecodeError} (h : decode w = .error e) (s : State) :
    presentWord w s = .next (usageFaulted s w
      (if s.halt && !acceptedWhileHalted w then .halted else faultOfDecode e)) := by
  simp only [presentWord, h, raiseUsageFault_eq]
  split <;> rfl

theorem presentWord_of_error_running {w : Word64} {e : DecodeError} {s : State} (h : decode w = .error e)
    (hh : s.halt = false) : presentWord w s = .next (faulted s w (faultOfDecode e).code.toNat) := by
  rw [presentWord_of_error h, usageFaulted_of_running hh, hh]
  rfl

end Sys2Proof.Machine

/-! ## Illegal words (R88) -/

namespace Sys2Proof.Machine

open Sys2Proof.Claims

/-- The faults of R88 are those of codes 1 to 3. -/
theorem faultWord_code_encoding_iff (f : UsageFault) :
    faultWord f.code.toNat ∈ [faultWord 1, faultWord 2, faultWord 3] ↔ f ∈ [.opcode, .field, .ctx] := by
  cases f <;> decide

/-- A response that is not of class FAULT is none of the faults of R88. -/
theorem not_mem_encodingFaults {word : Word64} (h : classOf word ≠ 2) :
    word ∉ [faultWord 1, faultWord 2, faultWord 3] := by
  simp only [List.mem_cons, List.not_mem_nil, or_false]
  rintro (rfl | rfl | rfl) <;> exact h rfl

/-- `EncodingFaultOnlyIf illegal o`: the outcome `o` is a next state with a response, and the response is a fault
of R88 only if `illegal` holds. -/
def EncodingFaultOnlyIf (illegal : Prop) (o : Out) : Prop :=
  ∃ t r, o = .next t ∧ t.resp = some r ∧ (r ∈ [faultWord 1, faultWord 2, faultWord 3] → illegal)

namespace EncodingFaultOnlyIf

variable {illegal : Prop} {s : State}

theorem respond (r1 : BitVec 20) (r0 : Word32) (u : State) :
    EncodingFaultOnlyIf illegal (Machine.respond .ok 0 r1 r0 u) :=
  ⟨_, _, respond_ok_eq r1 r0 u, rfl, fun h => absurd h (not_mem_encodingFaults (by simp))⟩

theorem respondOk (r0 : Word32) (u : State) : EncodingFaultOnlyIf illegal (Machine.respondOk r0 u) :=
  respond 0 r0 u

theorem raiseRcError (e : RcError) (u : State) : EncodingFaultOnlyIf illegal (Machine.raiseRcError e u) :=
  ⟨_, _, raiseRcError_eq e u, rfl, fun h => absurd h (not_mem_encodingFaults (by simp))⟩

theorem refuseErr : EncodingFaultOnlyIf illegal (Machine.refuseErr s) :=
  ⟨_, _, refuseErr_eq s, rfl, fun h => absurd h (not_mem_encodingFaults (by simp))⟩

theorem raise_if {f : UsageFault} (word : Word64) (hf : f ∈ [.opcode, .field, .ctx] → illegal) :
    EncodingFaultOnlyIf illegal (raiseUsageFault word f s) :=
  ⟨_, _, raiseUsageFault_eq word f s, usageFaulted_resp s word f, fun h =>
    hf ((faultWord_code_encoding_iff f).mp h)⟩

/-- Any other usage fault. -/
theorem raise (word : Word64) (f : UsageFault) (hf : f ∉ [.opcode, .field, .ctx] := by decide) :
    EncodingFaultOnlyIf illegal (raiseUsageFault word f s) :=
  raise_if word fun h => absurd h hf

theorem ite {c : Prop} [Decidable c] {a b : Out} (ha : EncodingFaultOnlyIf illegal a)
    (hb : EncodingFaultOnlyIf illegal b) : EncodingFaultOnlyIf illegal (if c then a else b) := by
  split
  · exact ha
  · exact hb

theorem onContext {word : Word64} {c : Nat} {k : SrContext → Out} (hc : s.params.nCtx ≤ c → illegal)
    (hk : ∀ x, EncodingFaultOnlyIf illegal (k x)) :
    EncodingFaultOnlyIf illegal (Machine.onContext word c s k) := by
  obtain ⟨-, h⟩ | ⟨-, hn, h⟩ | ⟨-, -, h⟩ := onContext_cases word c s k <;> rw [h]
  · exact raise word .halted
  · exact raise_if word fun _ => hc hn
  · exact hk _

theorem inMode {word : Word64} {m : RcMode} {k : Out} (hk : EncodingFaultOnlyIf illegal k) :
    EncodingFaultOnlyIf illegal (Machine.inMode word m s k) :=
  ite (raise word .halted) (ite (raise word .mode) (ite refuseErr hk))

end EncodingFaultOnlyIf

/-- Every command answers, and answers a fault of R88 only if it names a context that does not exist. -/
theorem exec_encodingFaultOnlyIf (i : Instr) (s : State) :
    EncodingFaultOnlyIf (i.wellFormed s.params = false) (exec i s) := by
  cases i with
  | nop =>
    dsimp only [exec, execNop]
    exact .respondOk _ _
  | csrRd csr =>
    dsimp only [exec, execCsrRd]
    split
    · exact .raise _ .addr
    · exact .respondOk _ _
  | rcEncInit len =>
    dsimp only [exec, execRcEncInit]
    exact .ite (.raise _ .halted) (.ite (.raiseRcError _ _) (.respondOk _ _))
  | rcDecInit len =>
    dsimp only [exec, execRcDecInit]
    exact .ite (.raise _ .halted) (.ite (.raiseRcError _ _) (.respondOk _ _))
  | rcEncode base nsym sym =>
    dsimp only [exec, execRcEncode, encodeInterval]
    exact .inMode (.ite (.raise _ .symbol) (.ite (.raise _ .addr) (.ite (.raise _ .cdf)
      (.ite (.raiseRcError _ _) (.ite (.raise _ .carry) (.respondOk _ _))))))
  | rcDecode base nsym hint =>
    dsimp only [exec, execRcDecode]
    refine .inMode (.ite (.raise _ .symbol) (.ite (.raise _ .addr) ?_))
    split
    · exact .raiseRcError _ _
    · dsimp only [decodeSymbol]
      exact .ite (.raiseRcError _ _) (.respondOk _ _)
  | rcGetLength =>
    dsimp only [exec, execRcGetLength]
    exact .ite (.raise _ .halted) (.ite (.respond _ _ _) (.raise _ .mode))
  | rcEncWrapup =>
    dsimp only [exec, execRcEncWrapup, wrapUp]
    exact .inMode (.ite (.raise _ .addr) (.ite (.raiseRcError _ _) (.ite (.raise _ .carry) (.respond _ _ _))))
  | rcCheck =>
    dsimp only [exec, execRcCheck]
    exact .inMode (.ite (.raise _ .addr) (.ite (.raiseRcError _ _) (.ite (.raiseRcError _ _) (.respondOk _ _))))
  | bufRd addr =>
    dsimp only [exec, execBufRd]
    exact .ite (.raise _ .halted) (.ite (.raise _ .addr) (.respondOk _ _))
  | bufWr addr byte =>
    dsimp only [exec, execBufWr]
    exact .ite (.raise _ .halted) (.ite (.raise _ .mode) (.ite (.raise _ .addr) (.respondOk _ _)))
  | cdfRd index =>
    dsimp only [exec, execCdfRd]
    exact .ite (.raise _ .halted) (.ite (.raise _ .addr) (.respondOk _ _))
  | srClear ctx =>
    dsimp only [exec, execSrClear]
    exact .onContext (by simp [Instr.wellFormed]) fun _ => .respondOk _ _
  | srCopy dst src =>
    dsimp only [exec, execSrCopy]
    refine .onContext (fun h => ?_) fun _ => ?_
    · simp [Instr.wellFormed, Nat.not_lt.mpr h]
    · split
      · next h => exact .raise_if _ fun _ => by simp [Instr.wellFormed, Nat.not_lt.mpr h]
      · exact .respondOk _ _
  | srRd ctx reg =>
    dsimp only [exec, execSrRd]
    refine .onContext (by simp [Instr.wellFormed]) fun _ => ?_
    split
    · exact .raise _ .addr
    · exact .respondOk _ _
  | srWr ctx reg value =>
    dsimp only [exec, execSrWr]
    refine .onContext (by simp [Instr.wellFormed]) fun _ => ?_
    split
    · exact .raise _ .addr
    · split
      · exact .raise _ .ro
      · exact .respondOk _ _
  | srPeek ctx ring k =>
    dsimp only [exec, execSrPeek]
    refine .onContext (by simp [Instr.wellFormed]) fun _ => ?_
    split
    · exact .raise _ .addr
    · exact .respondOk _ _
  | srPoke ctx ring k value =>
    dsimp only [exec, execSrPoke]
    refine .onContext (by simp [Instr.wellFormed]) fun _ => ?_
    split
    · exact .raise _ .addr
    · exact .respondOk _ _
  | srPredict ctx x =>
    dsimp only [exec, execSrPredict]
    exact .onContext (by simp [Instr.wellFormed]) fun _ => .ite (.raise _ .seq) (.ite (.raise _ .order)
      (.ite (.raise _ .order) (.ite (.raise _ .lag) (.respondOk _ _))))
  | srCommit ctx q =>
    dsimp only [exec, execSrCommit]
    exact .onContext (by simp [Instr.wellFormed]) fun _ => .ite (.respondOk _ _) (.raise _ .seq)

/-- A command on a context that does not exist raises UF_CTX on a running block. -/
theorem onContext_of_missing {c : Nat} {s : State} (word : Word64) (k : SrContext → Out) (hh : s.halt = false)
    (hc : s.params.nCtx ≤ c) : onContext word c s k = .next (faulted s word 3) := by
  simp only [onContext, hh, Bool.false_eq_true, if_false, hc, if_true, raiseUsageFault_eq,
    usageFaulted_of_running hh]
  rfl

theorem exec_of_not_wellFormed {i : Instr} {s : State} (hh : s.halt = false)
    (hw : i.wellFormed s.params = false) : exec i s = .next (faulted s (encode i) 3) := by
  cases i with
  | nop | csrRd | rcEncInit | rcDecInit | rcEncode | rcDecode | rcGetLength | rcEncWrapup | rcCheck | bufRd
  | bufWr | cdfRd => cases hw
  | srClear | srRd | srWr | srPeek | srPoke | srPredict | srCommit =>
    have hc := of_decide_eq_false hw
    dsimp only [exec, execSrClear, execSrRd, execSrWr, execSrPeek, execSrPoke, execSrPredict, execSrCommit]
    exact onContext_of_missing _ _ hh (not_lt.mp hc)
  | srCopy dst src =>
    dsimp only [exec, execSrCopy]
    by_cases hdst : s.params.nCtx ≤ dst.toNat
    · exact onContext_of_missing _ _ hh hdst
    · have hsrc : s.params.nCtx ≤ src.toNat := by
        simp only [Instr.wellFormed, Bool.and_eq_false_iff, decide_eq_false_iff_not] at hw
        omega
      simp only [onContext_runs _ _ _ _ hh (not_le.mp hdst), hsrc, if_true, raiseUsageFault_eq,
        usageFaulted_of_running hh]
      rfl

/-- Settles O3: the decoder's rows give the first two faults, the contexts a command names the third. -/
theorem illegalEncodingsFault : Obligations.IllegalEncodingsFault := by
  intro s hh
  have hunassigned (w : Word64) (h : ∀ row ∈ unusedBits, opcOf w ≠ row.1) :
      presentWord w s = .next (faulted s w 1) :=
    presentWord_of_error_running (e := .opcode) (decode_of_unassigned h) hh
  refine ⟨hunassigned, fun w row hrow hopc hset => ?_, fun w hlegal hctx hmissing => ?_,
    fun w t hlegal hexists h => ?_, by decide, hunassigned _ (by decide)⟩
  · exact presentWord_of_error_running (e := .field) (decode_of_unused hrow hopc hset) hh
  · obtain ⟨i, hi⟩ := decode_of_legalWord hlegal
    obtain rfl := encode_of_decode hi
    rw [presentWord_of_ok hi]
    exact exec_of_not_wellFormed hh ((wellFormed_eq_false_iff _ _).mpr ⟨hctx, hmissing⟩)
  · obtain ⟨i, hi⟩ := decode_of_legalWord hlegal
    obtain rfl := encode_of_decode hi
    rw [presentWord_of_ok hi] at h
    obtain ⟨u, r, hu, hr, hfault⟩ := exec_encodingFaultOnlyIf i s
    obtain rfl : u = t := by simpa [hu] using h
    have hnot := fun hmem => hexists ((wellFormed_eq_false_iff _ _).mp (hfault hmem))
    simpa [hr] using hnot

end Sys2Proof.Machine

/-! ## One well-formed response (R86) -/

namespace Sys2Proof.Machine

open Sys2Proof.Claims

/-! ### The fields of a response -/

@[simp] theorem codeOf_okWord (r1 : BitVec 20) (r0 : Word32) : codeOf (okWord r1.toNat r0.toNat) = 0 := by
  have h1 := r1.isLt
  have h0 := r0.isLt
  simp only [codeOf, okWord, BitVec.toNat_ofNat]
  omega

@[simp] theorem r1Of_okWord (r1 : BitVec 20) (r0 : Word32) : r1Of (okWord r1.toNat r0.toNat) = r1.toNat := by
  have h1 := r1.isLt
  have h0 := r0.isLt
  simp only [r1Of, okWord, BitVec.toNat_ofNat]
  omega

@[simp] theorem r0Of_okWord (r1 : BitVec 20) (r0 : Word32) : r0Of (okWord r1.toNat r0.toNat) = r0.toNat := by
  have h0 := r0.isLt
  simp only [r0Of, okWord, BitVec.toNat_ofNat]
  omega

theorem errWord_fields (code : BitVec 4) :
    codeOf (errWord code.toNat) = code.toNat ∧ r1Of (errWord code.toNat) = 0 ∧ r0Of (errWord code.toNat) = 0 := by
  have hc := code.isLt
  simp only [codeOf, r1Of, r0Of, errWord, BitVec.toNat_ofNat]
  omega

theorem faultWord_fields (code : BitVec 4) :
    codeOf (faultWord code.toNat) = code.toNat ∧ r1Of (faultWord code.toNat) = 0 ∧
      r0Of (faultWord code.toNat) = 0 := by
  have hc := code.isLt
  simp only [codeOf, r1Of, r0Of, faultWord, BitVec.toNat_ofNat]
  omega

/-- The codes of R191. -/
theorem RcError.code_range (e : RcError) : 1 ≤ e.code.toNat ∧ e.code.toNat ≤ 5 := by
  cases e <;> decide

/-- The codes of R195. -/
theorem UsageFault.code_range (f : UsageFault) :
    (1 ≤ f.code.toNat ∧ f.code.toNat ≤ 12) ∨ f.code.toNat = 15 := by
  cases f <;> decide

/-! ### Well-formed responses -/

/-- Only the commands that return them have non-zero results `r1` and `r0`. -/
def ResultsAdmitted (w : Word64) (r1 r0 : Nat) : Prop :=
  (r1 ≠ 0 → opcOf w = 0x14 ∨ opcOf w = 0x15) ∧
  (r0 ≠ 0 → opcOf w ∈ [0x01, 0x13, 0x14, 0x15, 0x18, 0x1A, 0x22, 0x24, 0x28, 0x29])

/-- The words of the statement about the response `r` to the command word `w`: a code that fits the class, no
results but in class OK, and only those of the command. -/
def WellFormedResponse (w r : Word64) : Prop :=
  ((classOf r = 0 ∧ codeOf r = 0) ∨
   (classOf r = 1 ∧ 1 ≤ codeOf r ∧ codeOf r ≤ 5 ∧ r1Of r = 0 ∧ r0Of r = 0) ∨
   (classOf r = 2 ∧ ((1 ≤ codeOf r ∧ codeOf r ≤ 12) ∨ codeOf r = 15) ∧ r1Of r = 0 ∧ r0Of r = 0)) ∧
  ResultsAdmitted w (r1Of r) (r0Of r)

section

variable {w : Word64} {i : Instr} {s t u : State} {r1 : BitVec 20} {r0 : Word32}

theorem resultsAdmitted_zero : ResultsAdmitted w 0 0 :=
  ⟨(absurd rfl ·), (absurd rfl ·)⟩

theorem wellFormedResponse_okWord (h : ResultsAdmitted w r1.toNat r0.toNat) :
    WellFormedResponse w (okWord r1.toNat r0.toNat) := by
  refine ⟨.inl ⟨classOf_okWord r1 r0, codeOf_okWord r1 r0⟩, ?_⟩
  rwa [r1Of_okWord, r0Of_okWord]

theorem wellFormedResponse_okWord_zero (h : ResultsAdmitted w 0 r0.toNat) :
    WellFormedResponse w (okWord 0 r0.toNat) := by
  have hform := wellFormedResponse_okWord (r1 := 0) h
  rwa [BitVec.ofNat_eq_ofNat, BitVec.toNat_zero] at hform

theorem wellFormedResponse_errWord {code : BitVec 4} (h : 1 ≤ code.toNat ∧ code.toNat ≤ 5) :
    WellFormedResponse w (errWord code.toNat) := by
  obtain ⟨hcode, hr1, hr0⟩ := errWord_fields code
  rw [WellFormedResponse, hcode, hr1, hr0]
  exact ⟨.inr (.inl ⟨classOf_errWord code, h.1, h.2, rfl, rfl⟩), resultsAdmitted_zero⟩

theorem wellFormedResponse_faultWord (f : UsageFault) : WellFormedResponse w (faultWord f.code.toNat) := by
  obtain ⟨hcode, hr1, hr0⟩ := faultWord_fields f.code
  rw [WellFormedResponse, hcode, hr1, hr0]
  exact ⟨.inr (.inr ⟨classOf_faultWord f.code, f.code_range, rfl, rfl⟩), resultsAdmitted_zero⟩

/-! ### What a command returns -/

theorem Completes.resultsAdmitted (h : Completes s i u r1 r0) : ResultsAdmitted (encode i) r1.toNat r0.toNat := by
  rw [ResultsAdmitted, opcOf_encode]
  cases h <;> simp [encodeFields]

theorem Stores.resultsAdmitted {k : Nat} {x : SrContext} (h : Stores s i k x r0) :
    ResultsAdmitted (encode i) 0 r0.toNat := by
  rw [ResultsAdmitted, opcOf_encode]
  cases h <;> simp [encodeFields]

/-- The sticky error of a good state has a code of R191 (R29). -/
theorem State.Inv.errCode_range (h : s.Inv) (he : s.err = true) : 1 ≤ s.errCode.toNat ∧ s.errCode.toNat ≤ 5 := by
  refine ⟨Nat.one_le_iff_ne_zero.mpr fun hzero => ?_, h.errCodeLe⟩
  have hclear := h.errCodeIff.mp (BitVec.eq_of_toNat_eq hzero)
  simp [he] at hclear

theorem Answers.wellFormedResponse (h : Answers i s t) (hinv : s.Inv) :
    ∃ r, t.resp = some r ∧ WellFormedResponse (encode i) r := by
  cases h with
  | fault f => exact ⟨_, usageFaulted_resp _ _ f, wellFormedResponse_faultWord f⟩
  | sticky _ _ he => exact ⟨_, rfl, wellFormedResponse_errWord (hinv.errCode_range he)⟩
  | raised e => exact ⟨_, rfl, wellFormedResponse_errWord e.code_range⟩
  | encTooLong | decTooLong => exact ⟨_, rfl, wellFormedResponse_errWord RcError.length.code_range⟩
  | completes u r1 r0 hc => exact ⟨_, rfl, wellFormedResponse_okWord hc.resultsAdmitted⟩
  | stores k x r0 _ _ hs => exact ⟨_, rfl, wellFormedResponse_okWord_zero hs.resultsAdmitted⟩

end

/-- Settles O10: a word that does not decode raises a usage fault, and a command answers as `Answers` says. -/
theorem everyCommandGetsOneResponse : Obligations.EveryCommandGetsOneResponse := by
  intro s w hinv
  cases hd : decode w with
  | error e => exact ⟨_, _, presentWord_of_error hd s, usageFaulted_resp _ _ _, wellFormedResponse_faultWord _⟩
  | ok i =>
    obtain rfl := encode_of_decode hd
    obtain ⟨t, -, ht, -⟩ := exec_encodingFaultOnlyIf i s
    obtain ⟨r, hr, hform⟩ := (exec_answers ht).wellFormedResponse hinv
    exact ⟨t, r, (presentWord_of_ok hd s).trans ht, hr, hform⟩

end Sys2Proof.Machine

/-! ## RC commands, arm by arm (R101 to R120)

What each RC command answers on a running block, once each, in the words of the statements: the checks in their
order, and past them the command's own effect. -/

namespace Sys2Proof.Machine

open Sys2Proof.Claims

/-! ### Shared checks -/

/-- A usage fault of a running block. -/
theorem raiseUsageFault_eq_faulted {s : State} (hh : s.halt = false) (word : Word64) (f : UsageFault) :
    raiseUsageFault word f s = .next (faulted s word f.code.toNat) := by
  rw [raiseUsageFault_eq, usageFaulted_of_running hh]

/-- The mode check and the gate, on a running block. -/
theorem inMode_eq_of_running {s : State} (hh : s.halt = false) (word : Word64) (m : RcMode) (k : Out) :
    inMode word m s k =
      if s.mode ≠ m then .next (faulted s word 5)
      else if s.err = true then .next (answered s (errWord s.errCode.toNat)) else k := by
  simp only [inMode, hh, Bool.false_eq_true, if_false, raiseUsageFault_eq_faulted hh, refuseErr_eq]
  rfl

/-- The guard of log entry 7 never applies while `LEN` is within the buffer. -/
theorem State.lenOutside_eq_false {s : State} (h : s.len.toNat ≤ s.params.bufBytes) : s.lenOutside = false :=
  decide_eq_false (Nat.not_lt.mpr h)

/-! ### What a response leaves -/

@[simp] theorem answered_range (s : State) (word : Word64) : (answered s word).range = s.range := rfl
@[simp] theorem answered_ix (s : State) (word : Word64) : (answered s word).ix = s.ix := rfl
@[simp] theorem answered_bufByte (s : State) (word : Word64) : (answered s word).bufByte = s.bufByte := rfl
@[simp] theorem answered_codedLow (s : State) (word : Word64) : (answered s word).codedLow = s.codedLow := rfl

/-! ### The two inits -/

section

variable {s : State} {len : Word16}

/-- RC_ENC_INIT (R101). -/
theorem exec_rcEncInit (hh : s.halt = false) :
    exec (.rcEncInit len) s =
      if s.params.bufBytes < len.toNat then .next (rcFailed (s.withSession .enc 0 0) 4)
      else .next (answered (s.withSession .enc 0 len).withoutErr (okWord 0 0)) := by
  simp only [exec, execRcEncInit, hh, Bool.false_eq_true, if_false, raiseRcError_eq, respondOk_eq]
  rfl

/-- RC_DEC_INIT (R102). -/
theorem exec_rcDecInit (hh : s.halt = false) :
    exec (.rcDecInit len) s =
      if s.params.bufBytes < len.toNat then .next (rcFailed (s.withSession .dec 0 0) 4)
      else .next (answered (s.withSession .dec (s.withSession .dec 0 len).seedBase len).withoutErr
        (okWord 0 0)) := by
  simp only [exec, execRcDecInit, hh, Bool.false_eq_true, if_false, raiseRcError_eq, respondOk_eq]
  rfl

/-- `P(p)` as a number (R103). -/
theorem State.payloadByte_toNat (s : State) (p : Nat) : (s.payloadByte p).toNat = payload s s.len.toNat p := by
  unfold State.payloadByte payload
  split <;> rfl

/-- The seed of `BASE` is the first four payload bytes of the new session, big endian (R102). -/
theorem State.seedBase_withSession (s : State) (m : RcMode) (b : Word32) (len : Word16) :
    (s.withSession m b len).seedBase =
      BitVec.ofNat 32 (payload s len.toNat 0 * 2 ^ 24 + payload s len.toNat 1 * 2 ^ 16
        + payload s len.toNat 2 * 2 ^ 8 + payload s len.toNat 3) := by
  have hbyte (p : Nat) : ((s.withSession m b len).payloadByte p).toNat = payload s len.toNat p :=
    State.payloadByte_toNat _ p
  have hlt := (s.withSession m b len).seedBase.isLt
  apply BitVec.eq_of_toNat_eq
  simp only [State.seedBase, append_toNat, hbyte, BitVec.toNat_ofNat] at hlt ⊢
  omega

end

/-- Settles O27. -/
theorem encInitBeginsSession : Obligations.EncInitBeginsSession := by
  intro s len hh
  refine ⟨fun hlen => ?_, fun hlen => ?_⟩
  · rw [exec_rcEncInit hh, if_neg (by omega)]; rfl
  · rw [exec_rcEncInit hh, if_pos hlen]; rfl

/-- Settles O28. -/
theorem decInitSeedsBase : Obligations.DecInitSeedsBase := by
  intro s len hh
  refine ⟨fun hlen => ?_, fun hlen => ?_⟩
  · rw [exec_rcDecInit hh, if_neg (by omega), ← State.seedBase_withSession s .dec 0 len]; rfl
  · rw [exec_rcDecInit hh, if_pos hlen]; rfl

/-! ### RC_ENCODE and RC_DECODE -/

section

variable {s : State} {base nsym : Word16}

/-- RC_ENCODE: its checks in the order of R104, then the main rule. -/
theorem exec_rcEncode {sym : Word16} (hh : s.halt = false) (hlen : s.len.toNat ≤ s.params.bufBytes) :
    exec (.rcEncode base nsym sym) s =
      if s.mode ≠ .enc then .next (faulted s (encode (.rcEncode base nsym sym)) 5)
      else if s.err = true then .next (answered s (errWord s.errCode.toNat))
      else if nsym.toNat = 0 ∨ nsym.toNat ≤ sym.toNat then
        .next (faulted s (encode (.rcEncode base nsym sym)) 6)
      else if s.params.cdfEntries ≤ base.toNat + nsym.toNat then
        .next (faulted s (encode (.rcEncode base nsym sym)) 4)
      else if entry s (base.toNat + sym.toNat + 1) ≤ entry s (base.toNat + sym.toNat) then
        .next (faulted s (encode (.rcEncode base nsym sym)) 7)
      else encodeInterval (encode (.rcEncode base nsym sym)) (s.params.cdf (base.toNat + sym.toNat))
        (s.params.cdf (base.toNat + sym.toNat + 1)) s := by
  have hzero : nsym = 0 ↔ nsym.toNat = 0 := by rw [← BitVec.toNat_inj]; rfl
  simp only [exec, execRcEncode, inMode_eq_of_running hh, raiseUsageFault_eq_faulted hh,
    State.lenOutside_eq_false hlen, hzero, Bool.false_eq_true, or_false]
  rfl

/-- RC_DECODE: its checks in the order of R110, then the symbol search and the main rule. -/
theorem exec_rcDecode {hint : Word16} (hh : s.halt = false) (hlen : s.len.toNat ≤ s.params.bufBytes) :
    exec (.rcDecode base nsym hint) s =
      if s.mode ≠ .dec then .next (faulted s (encode (.rcDecode base nsym hint)) 5)
      else if s.err = true then .next (answered s (errWord s.errCode.toNat))
      else if nsym.toNat = 0 then .next (faulted s (encode (.rcDecode base nsym hint)) 6)
      else if s.params.cdfEntries ≤ base.toNat + nsym.toNat then
        .next (faulted s (encode (.rcDecode base nsym hint)) 4)
      else (s.findSymbol base.toNat nsym.toNat).elim (.next (rcFailed s 2))
        fun sym => decodeSymbol base.toNat sym s := by
  have hzero : nsym = 0 ↔ nsym.toNat = 0 := by rw [← BitVec.toNat_inj]; rfl
  simp only [exec, execRcDecode, inMode_eq_of_running hh, raiseUsageFault_eq_faulted hh, raiseRcError_eq,
    State.lenOutside_eq_false hlen, hzero, Bool.false_eq_true, or_false]
  cases s.findSymbol base.toNat nsym.toNat <;> rfl

/-- A word of RC_DECODE raises the same fault, or does the same, whatever its hint (R112). -/
theorem exec_rcDecode_hint (s : State) (base nsym : Word16) :
    (∃ f, ∀ hint, exec (.rcDecode base nsym hint) s =
      .next (usageFaulted s (encode (.rcDecode base nsym hint)) f)) ∨
    ∃ o, ∀ hint, exec (.rcDecode base nsym hint) s = o := by
  simp only [exec, execRcDecode, inMode, raiseUsageFault_eq]
  split_ifs
  iterate 2 exact .inl ⟨_, fun _ => rfl⟩
  · exact .inr ⟨_, fun _ => rfl⟩
  iterate 2 exact .inl ⟨_, fun _ => rfl⟩
  · exact .inr ⟨_, fun _ => rfl⟩

end

/-- A usage fault records its word, and nothing else of it, unless the block was halted before (R196). -/
theorem usageFaulted_word (s : State) (word word' : Word64) (f : UsageFault) :
    ∃ info, usageFaulted s word' f = { usageFaulted s word f with faultInfo := info } ∧
      ((usageFaulted s word f).halt = false → info = (usageFaulted s word f).faultInfo) := by
  cases hh : s.halt
  · exact ⟨word', by simp [usageFaulted, hh, faulted], by simp [usageFaulted, hh, faulted]⟩
  · exact ⟨s.faultInfo, by simp [usageFaulted, hh, answered], by simp [usageFaulted, hh, answered]⟩

theorem decode_encode_rcDecode (base nsym hint : Word16) :
    decode (encode (.rcDecode base nsym hint)) = .ok (.rcDecode base nsym hint) := by
  have hhigh : (nsym ++ hint).extractLsb' 16 16 = nsym := BitVec.extractLsb'_append_eq_left
  have hlow : (nsym ++ hint).extractLsb' 0 16 = hint := BitVec.extractLsb'_append_eq_right
  rw [decode, splitFields_encode]
  simp [encodeFields, decodeFields, ifZero, hhigh, hlow]

/-- Settles O34: the checks and the main rule name no hint, and a fault differs in the recorded word only. -/
theorem decodeIgnoresTheHint : Obligations.DecodeIgnoresTheHint := by
  intro s t base nsym hint hint'
  refine ⟨decode_encode_rcDecode base nsym hint, fun h => ?_⟩
  obtain ⟨f, hf⟩ | ⟨o, ho⟩ := exec_rcDecode_hint s base nsym
  · rw [hf] at h ⊢
    cases h
    obtain ⟨info, heq, hinfo⟩ := usageFaulted_word s (encode (.rcDecode base nsym hint))
      (encode (.rcDecode base nsym hint')) f
    exact ⟨info, by rw [heq], hinfo⟩
  · exact ⟨t.faultInfo, by rw [ho, ← ho hint, h], fun _ => rfl⟩

/-! ### RC_GET_LENGTH, RC_ENC_WRAPUP and RC_CHECK -/

section

variable {s : State}

/-- RC_GET_LENGTH (R116). -/
theorem exec_rcGetLength (hh : s.halt = false) :
    exec .rcGetLength s =
      if s.mode.inSession = true then
        .next (answered s (okWord (s.rcBytes.setWidth 20).toNat s.rcBits.toNat))
      else .next (faulted s (encode .rcGetLength) 5) := by
  simp only [exec, execRcGetLength, hh, Bool.false_eq_true, if_false, respond_ok_eq,
    raiseUsageFault_eq_faulted hh]
  rfl

/-- RC_ENC_WRAPUP: the mode, the sticky error, then the rest (R118). -/
theorem exec_rcEncWrapup (hh : s.halt = false) (hlen : s.len.toNat ≤ s.params.bufBytes) :
    exec .rcEncWrapup s =
      if s.mode ≠ .enc then .next (faulted s (encode .rcEncWrapup) 5)
      else if s.err = true then .next (answered s (errWord s.errCode.toNat))
      else wrapUp (encode .rcEncWrapup) s := by
  simp only [exec, execRcEncWrapup, inMode_eq_of_running hh, State.lenOutside_eq_false hlen,
    Bool.false_eq_true, if_false]

/-- RC_CHECK (R120). -/
theorem exec_rcCheck (hh : s.halt = false) (hlen : s.len.toNat ≤ s.params.bufBytes) :
    exec .rcCheck s =
      if s.mode ≠ .dec then .next (faulted s (encode .rcCheck) 5)
      else if s.err = true then .next (answered s (errWord s.errCode.toNat))
      else if s.len.toNat < s.rcBytes.toNat then .next (rcFailed s 3)
      else if s.rcBits.toNat % 8 ≠ 0 ∧
          s.bufByte (s.rcBytes.toNat - 1) &&& paddingMask s.rcBits ≠ paddingMask s.rcBits then
        .next (rcFailed s 3)
      else .next (answered s (okWord 0 0)) := by
  simp only [exec, execRcCheck, inMode_eq_of_running hh, State.lenOutside_eq_false hlen,
    Bool.false_eq_true, if_false, raiseRcError_eq, respondOk_eq]
  rfl

end

end Sys2Proof.Machine

/-! ## The length function (R115, R116)

`rc_length()` on numbers, from the table of R115, and the commands that read it. -/

namespace Sys2Proof.Machine

open Sys2Proof.Claims

/-- Every range of a session has its row in the table of R115. -/
theorem exists_lengthTerm {range : Nat} (h : 256 ≤ range) (hlt : range < 2 ^ 16) :
    ∃ b, lengthTerm range b := by
  have hlow : 7 ≤ Nat.log2 (range - 1) := (Nat.le_log2 (by omega)).mpr (by omega)
  have hhigh : Nat.log2 (range - 1) < 16 := (Nat.log2_lt (by omega)).mpr (by omega)
  have hself : 2 ^ Nat.log2 (range - 1) ≤ range - 1 := Nat.log2_self_le (by omega)
  have hnext : range - 1 < 2 ^ (Nat.log2 (range - 1) + 1) := Nat.lt_log2_self
  refine ⟨17 - Nat.log2 (range - 1), by omega, by omega, ?_, ?_⟩
  · rw [show 17 - (17 - Nat.log2 (range - 1)) = Nat.log2 (range - 1) by omega]; omega
  · rw [show 18 - (17 - Nat.log2 (range - 1)) = Nat.log2 (range - 1) + 1 by omega]; omega

theorem lengthTerm_bounds {range b : Nat} (h : lengthTerm range b) : 2 ≤ b ∧ b ≤ 10 := by
  obtain ⟨h2, h10, -, -⟩ := h
  exact ⟨h2, h10⟩

section

variable {s : State} {b : Nat}

/-- The leading zeros of `RANGE - 1` are the row of the table, 14 more than its `b` (R115). -/
theorem clz32_of_lengthTerm (h : lengthTerm s.range.toNat b) :
    clz32 (s.range.setWidth 32 - 1) = b + 14 := by
  obtain ⟨h2, h10, hlow, hhigh⟩ := h
  have hlt := s.range.isLt
  have hpos : 0 < 2 ^ (17 - b) := Nat.two_pow_pos _
  have hsub : (s.range.setWidth 32 - 1).toNat = s.range.toNat - 1 := by
    simp only [BitVec.toNat_sub, BitVec.toNat_setWidth, BitVec.ofNat_eq_ofNat, BitVec.toNat_ofNat]
    omega
  have hlog : Nat.log2 (s.range.toNat - 1) = 17 - b := by
    refine (Nat.log2_eq_iff (by omega)).mpr ⟨by omega, ?_⟩
    rw [show 17 - b + 1 = 18 - b by omega]; omega
  have hne : s.range.setWidth 32 - 1 ≠ 0 := fun h0 => by
    rw [h0] at hsub
    simp only [BitVec.ofNat_eq_ofNat, BitVec.toNat_ofNat] at hsub
    omega
  rw [clz32, if_neg hne, hsub, hlog]
  omega

/-- `bits` (R115). -/
theorem State.rcBits_toNat (h : lengthTerm s.range.toNat b) : s.rcBits.toNat = 8 * s.ix.toNat + b := by
  obtain ⟨h2, h10⟩ := lengthTerm_bounds h
  have hix := s.ix.isLt
  have hsum : 8 * (s.ix.toNat : Int) + ((b + 14 : Nat) : Int) - 14 = (8 * s.ix.toNat + b : Nat) := by
    push_cast; ring
  rw [State.rcBits, clz32_of_lengthTerm h, hsum, BitVec.ofInt_natCast, BitVec.toNat_ofNat]
  omega

/-- `bytes` (R115). -/
theorem State.rcBytes_toNat (h : lengthTerm s.range.toNat b) : s.rcBytes.toNat = s.ix.toNat + bytesFor b := by
  obtain ⟨h2, h10⟩ := lengthTerm_bounds h
  have hix := s.ix.isLt
  simp only [State.rcBytes, BitVec.toNat_ushiftRight, Nat.shiftRight_eq_div_pow, BitVec.toNat_add,
    State.rcBits_toNat h, BitVec.ofNat_eq_ofNat, BitVec.toNat_ofNat, bytesFor]
  split <;> omega

/-- `bytes` fits the second result of a response (R86). -/
theorem State.rcBytes_setWidth_toNat (h : lengthTerm s.range.toNat b) :
    (s.rcBytes.setWidth 20).toNat = s.ix.toNat + bytesFor b := by
  have hix := s.ix.isLt
  rw [BitVec.toNat_setWidth, State.rcBytes_toNat h, bytesFor]
  split <;> omega

/-- The bits of `BASE` still to store (R118) are those of the table. -/
theorem State.bitsToStore_eq (h : lengthTerm s.range.toNat b) : s.bitsToStore = b := by
  obtain ⟨h2, h10⟩ := lengthTerm_bounds h
  have hix := s.ix.isLt
  rw [State.bitsToStore, BitVec.toNat_sub, State.rcBits_toNat h, BitVec.toNat_ofNat]
  omega

/-- The padding bits fill the last byte, and are fewer than eight (R118, R120). -/
theorem State.padding_fills (h : lengthTerm s.range.toNat b) :
    8 * bytesFor b - b < 8 ∧ (s.rcBits.toNat + (8 * bytesFor b - b)) % 8 = 0 := by
  obtain ⟨h2, h10⟩ := lengthTerm_bounds h
  rw [State.rcBits_toNat h, bytesFor]
  split <;> omega

end

/-- The modes of a session (R30). -/
theorem inSession_iff (m : RcMode) : m.inSession = true ↔ m = .enc ∨ m = .dec := by
  cases m <;> decide

/-- Settles O35. -/
theorem getLengthAnswersBitsAndBytes : Obligations.GetLengthAnswersBitsAndBytes := by
  intro s hh
  refine ⟨fun henc hdec => ?_, fun hm hrange => ?_⟩
  · rw [exec_rcGetLength hh, if_neg ((inSession_iff _).not.mpr (not_or_intro henc hdec))]
  · obtain ⟨b, hb⟩ := exists_lengthTerm hrange s.range.isLt
    refine ⟨b, hb, ?_⟩
    rw [exec_rcGetLength hh, if_pos ((inSession_iff _).mpr hm), State.rcBytes_setWidth_toNat hb, State.rcBits_toNat hb]

/-! ### The padding (R118, R120) -/

section

variable {bits : Word32} {k : Nat}

/-- With `k` bits to the end of the last byte the padding mask is `k` ones. -/
theorem paddingMask_toNat (hk : k < 8) (hpos : 0 < k) (hbits : (bits.toNat + k) % 8 = 0) :
    (paddingMask bits).toNat = 2 ^ k - 1 := by
  have hmod : bits.toNat % 8 = 8 - k := by omega
  rw [paddingMask, hmod]
  interval_cases k <;> rfl

/-- The padding bits of a byte are all ones exactly if the byte covers the mask. -/
theorem and_paddingMask_eq_iff (hk : k < 8) (hpos : 0 < k) (hbits : (bits.toNat + k) % 8 = 0) (byte : Byte) :
    byte &&& paddingMask bits = paddingMask bits ↔ byte.toNat % 2 ^ k = 2 ^ k - 1 := by
  rw [← BitVec.toNat_inj, BitVec.toNat_and, paddingMask_toNat hk hpos hbits, Nat.and_two_pow_sub_one_eq_mod]

end

/-- The padding check of RC_CHECK (R120). -/
theorem padding_missing_iff {s : State} {b : Nat} (h : lengthTerm s.range.toNat b) (byte : Byte) :
    (s.rcBits.toNat % 8 ≠ 0 ∧ byte &&& paddingMask s.rcBits ≠ paddingMask s.rcBits) ↔
      ¬ byte.toNat % 2 ^ (8 * bytesFor b - b) = 2 ^ (8 * bytesFor b - b) - 1 := by
  obtain ⟨hk, hbits⟩ := State.padding_fills h
  obtain hzero | hpos := Nat.eq_zero_or_pos (8 * bytesFor b - b)
  · have hmod : s.rcBits.toNat % 8 = 0 := by omega
    simp [hmod, hzero, Nat.mod_one]
  · have hmod : s.rcBits.toNat % 8 ≠ 0 := by omega
    exact (and_iff_right hmod).trans (and_paddingMask_eq_iff hk hpos hbits byte).not

/-- Settles O37. -/
theorem checkVerifiesThePadding : Obligations.CheckVerifiesThePadding := by
  intro s b hh hlen hb
  have hexec := exec_rcCheck hh hlen
  simp only [State.rcBytes_toNat hb, padding_missing_iff hb] at hexec
  dsimp only
  rw [hexec]
  refine ⟨fun hm => ?_, fun hm he => ?_, fun hm he hroom => ?_, fun hm he hroom hpad => ?_,
    fun hm he hroom hpad => ?_⟩
  · rw [if_pos hm]
  · rw [if_neg (by simp [hm]), if_pos he]
  · rw [if_neg (by simp [hm]), if_neg (by simp [he]), if_pos hroom]
  · rw [if_neg (by simp [hm]), if_neg (by simp [he]), if_neg (by omega), if_pos hpad]
  · rw [if_neg (by simp [hm]), if_neg (by simp [he]), if_neg (by omega), if_neg (not_not_intro hpad)]

end Sys2Proof.Machine

/-! ## Carry and emission on numbers (R105 to R108)

The payload as one big-endian number: a carry adds one to it, emission moves it up by whole bytes. -/

namespace Sys2Proof.Machine

open Sys2Proof.Claims

/-! ### The carry -/

/-- From the bytes `f` to the bytes `g` a carry walked back below position `n` over bytes FF to the first byte
that could take it (R107). -/
def Carried (n : Nat) (f g : Nat → Byte) : Prop :=
  ∃ j, j < n ∧ f j ≠ 0xFF ∧ (g j).toNat = (f j).toNat + 1 ∧
    (∀ a, j < a → a < n → f a = 0xFF ∧ g a = 0) ∧ (∀ a, a < j → g a = f a)

theorem carryWalked_iff (s t : State) : carryWalked s t ↔ Carried s.ix.toNat s.bufByte t.bufByte := Iff.rfl

theorem byte_add_one_of_ff {x : Byte} (h : x = 0xFF) : x + 1 = 0 := by
  rw [h]; rfl

theorem byte_add_one_toNat {x : Byte} (h : x ≠ 0xFF) : (x + 1).toNat = x.toNat + 1 := by
  have hlt := x.isLt
  have hne : x.toNat ≠ 255 := fun h0 => h (BitVec.eq_of_toNat_eq h0)
  simp only [BitVec.toNat_add, BitVec.ofNat_eq_ofNat, BitVec.toNat_ofNat]
  omega

/-- The carry walk stops at the first byte that is not FF, if there is one. -/
theorem carryWalk_carried (epoch n : Nat) (buf : Memory) (h : ∃ j, j < n ∧ Memory.read epoch buf j ≠ 0xFF) :
    Carried n (Memory.read epoch buf) (Memory.read epoch (carryWalk epoch n buf)) := by
  induction n generalizing buf with
  | zero => obtain ⟨j, hj, -⟩ := h; omega
  | succ n ih =>
    have hbelow (byte : Byte) {a : Nat} (ha : a < n) :
        Memory.read epoch (Memory.write n byte buf) a = Memory.read epoch buf a :=
      Memory.read_write_other _ _ _ _ _ (by omega)
    by_cases hff : Memory.read epoch buf n = 0xFF
    · rw [carryWalk, byte_add_one_of_ff hff, if_pos rfl]
      obtain ⟨i, hi, hine⟩ := h
      have hin : i < n := by
        obtain rfl | hlt : i = n ∨ i < n := by omega
        · exact absurd hff hine
        · exact hlt
      obtain ⟨j, hj, hne, hone, habove, hkept⟩ :=
        ih (Memory.write n 0 buf) ⟨i, hin, by rwa [hbelow _ hin]⟩
      rw [hbelow _ hj] at hne hone
      refine ⟨j, by omega, hne, hone, fun a hja han => ?_, fun a ha => ?_⟩
      · obtain rfl | hlt : a = n ∨ a < n := by omega
        · rw [carryWalk_read_ge _ _ _ _ _ le_rfl, Memory.read_write_same]
          exact ⟨hff, rfl⟩
        · rw [← hbelow 0 hlt]
          exact habove a hja hlt
      · rw [hkept a ha, hbelow _ (by omega)]
    · have hone := byte_add_one_toNat hff
      have hne : Memory.read epoch buf n + 1 ≠ 0 := fun h0 => by rw [h0] at hone; simp at hone
      rw [carryWalk, if_neg hne]
      refine ⟨n, by omega, hff, by rw [Memory.read_write_same, hone], fun a hna han => by omega,
        fun a ha => hbelow _ ha⟩

/-- The condition of UF_CARRY, in the words of the statements. -/
theorem State.carryBlocked_iff (s : State) : s.carryBlocked = true ↔ noRoomForCarry s := by
  simp only [State.carryBlocked, noRoomForCarry, Bool.or_eq_true, List.all_eq_true, List.mem_range, beq_iff_eq]
  refine or_iff_right_of_imp fun h j hj => ?_
  rw [h] at hj
  exact absurd hj (Nat.not_lt_zero j)

theorem State.exists_of_not_carryBlocked {s : State} (h : s.carryBlocked = false) :
    ∃ j, j < s.ix.toNat ∧ s.bufByte j ≠ 0xFF := by
  by_contra hno
  push Not at hno
  rw [s.carryBlocked_iff.mpr hno] at h
  cases h

theorem State.bufAfterCarry_carried {s : State} (h : s.carryBlocked = false) :
    Carried s.ix.toNat s.bufByte (Memory.read s.epoch (s.bufAfterCarry true)) :=
  carryWalk_carried _ _ _ (State.exists_of_not_carryBlocked h)

/-- A carry changes no byte at or beyond `IX`. -/
theorem State.bufAfterCarry_read_ge (s : State) (c : Bool) {a : Nat} (ha : s.ix.toNat ≤ a) :
    Memory.read s.epoch (s.bufAfterCarry c) a = s.bufByte a := by
  cases c
  · rfl
  · exact carryWalk_read_ge _ _ _ _ _ ha

/-! ### The payload as a number -/

theorem bytesBig_congr {f g : Nat → Byte} {n : Nat} (h : ∀ a, a < n → f a = g a) :
    bytesBig f n = bytesBig g n := by
  induction n with
  | zero => rfl
  | succ n ih => rw [bytesBig, bytesBig, ih fun a ha => h a (by omega), h n (by omega)]

/-- A carry that finds a byte adds one to the payload. -/
theorem Carried.bytesBig_eq {n : Nat} {f g : Nat → Byte} (h : Carried n f g) :
    bytesBig g n = bytesBig f n + 1 := by
  obtain ⟨j, hj, hne, hone, habove, hkept⟩ := h
  induction n with
  | zero => omega
  | succ n ih =>
    obtain rfl | hlt : j = n ∨ j < n := by omega
    · rw [bytesBig, bytesBig, bytesBig_congr hkept, hone]
      omega
    · obtain ⟨hff, hzero⟩ := habove n hlt (by omega)
      have hbelow := ih hlt fun a hja han => habove a hja (by omega)
      rw [bytesBig, bytesBig, hbelow, hff, hzero]
      simp only [BitVec.ofNat_eq_ofNat, BitVec.toNat_ofNat]
      omega

theorem State.bytesBig_bufAfterCarry {s : State} {c : Bool} (h : c = true → s.carryBlocked = false) :
    bytesBig (Memory.read s.epoch (s.bufAfterCarry c)) s.ix.toNat = bytesBig s.bufByte s.ix.toNat + c.toNat := by
  cases c
  · rfl
  · exact (State.bufAfterCarry_carried (h rfl)).bytesBig_eq

/-- Writing the byte after the payload appends it. -/
theorem bytesBig_write (epoch n : Nat) (byte : Byte) (buf : Memory) :
    bytesBig (Memory.read epoch (Memory.write n byte buf)) (n + 1) =
      bytesBig (Memory.read epoch buf) n * 256 + byte.toNat := by
  rw [bytesBig, Memory.read_write_same,
    bytesBig_congr fun a ha => Memory.read_write_other epoch n a byte buf (by omega)]

/-- Emission moves the payload followed by the register up by whole bytes (R108). -/
theorem bytesBig_emitBytes (epoch n : Nat) (bn : Word32) (ix : Nat) (buf : Memory) :
    bytesBig (Memory.read epoch (emitBytes n bn ix buf).2) (ix + n) * 2 ^ 32 + (emitBytes n bn ix buf).1.toNat =
      (bytesBig (Memory.read epoch buf) ix * 2 ^ 32 + bn.toNat) * 256 ^ n := by
  induction n generalizing bn ix buf with
  | zero => simp [emitBytes]
  | succ n ih =>
    have hlt := bn.isLt
    have hbyte : bytesBig (Memory.read epoch (Memory.write ix (bn.extractLsb' 24 8) buf)) (ix + 1) * 2 ^ 32
        + (bn <<< 8).toNat = (bytesBig (Memory.read epoch buf) ix * 2 ^ 32 + bn.toNat) * 256 := by
      rw [bytesBig_write, BitVec.extractLsb'_toNat, BitVec.toNat_shiftLeft, Nat.shiftRight_eq_div_pow,
        Nat.shiftLeft_eq]
      omega
    rw [emitBytes, show ix + (n + 1) = ix + 1 + n by omega, ih, hbyte, Nat.mul_assoc, ← Nat.pow_succ']

/-! ## RC_ENCODE (R104 to R106) -/

theorem fst_renorm (prod : Word32) : (renorm prod).1 = moved prod.toNat := by
  unfold moved
  obtain ⟨h, heq, -⟩ | ⟨h, h', heq, -⟩ | ⟨h, heq, -⟩ := renorm_cases prod
  · rw [heq, if_pos h]
  · rw [heq, if_neg (by omega), if_pos h]
  · rw [heq, if_neg (by omega), if_neg (by omega)]

theorem snd_renorm_toNat (prod : Word32) : (renorm prod).2.toNat = newRange prod.toNat := by
  unfold newRange
  obtain ⟨h, -, heq⟩ | ⟨h, h', -, heq⟩ | ⟨h, -, heq⟩ := renorm_cases prod
  · rw [heq, if_pos h]
  · rw [heq, if_neg (by omega), if_pos h]
  · rw [heq, if_neg (by omega), if_neg (by omega)]

/-- A sum of words and its carry, as a number. -/
theorem add_carry_toNat (x : Word32) {y : Nat} (hy : y < 2 ^ 32) :
    (decide ((x + BitVec.ofNat 32 y).toNat < x.toNat)).toNat * 2 ^ 32 + (x + BitVec.ofNat 32 y).toNat =
      x.toNat + y := by
  have hx := x.isLt
  have hsum : (x + BitVec.ofNat 32 y).toNat = (x.toNat + y) % 2 ^ 32 := by
    rw [BitVec.toNat_add, BitVec.toNat_ofNat, Nat.mod_eq_of_lt hy]
  by_cases hc : (x + BitVec.ofNat 32 y).toNat < x.toNat
  · rw [decide_eq_true hc, Bool.toNat_true]
    omega
  · rw [decide_eq_false hc, Bool.toNat_false]
    omega

/-- The addition of RC_ENCODE carries exactly if the sum wrapped (R105). -/
theorem add_lt_iff_carry (x : Word32) {y : Nat} (hy : y < 2 ^ 32) :
    (x + BitVec.ofNat 32 y).toNat < x.toNat ↔ 2 ^ 32 ≤ x.toNat + y := by
  have hx := x.isLt
  rw [BitVec.toNat_add, BitVec.toNat_ofNat, Nat.mod_eq_of_lt hy]
  omega

/-- `n` of R106 for the sub-interval `low .. high`. -/
def State.movedFor (s : State) (low high : Word16) : Nat := moved (s.range.toNat * (high.toNat - low.toNat))

/-- The addition of RC_ENCODE carries (R105). -/
def State.encodeCarries (s : State) (low : Word16) : Bool :=
  decide (2 ^ 32 ≤ s.base.toNat + s.range.toNat * low.toNat)

/-- The emitted bytes and `BASE` that RC_ENCODE leaves (R105, R108). -/
def State.emitted (s : State) (low high : Word16) : Word32 × Memory :=
  emitBytes (s.movedFor low high) (s.base + BitVec.ofNat 32 (s.rangeTimes low)) s.ix.toNat
    (s.bufAfterCarry (s.encodeCarries low))

/-- The state after an RC_ENCODE that succeeds, but for the response. -/
def State.encoded (s : State) (low high : Word16) : State :=
  (s.withBuf (s.emitted low high).2).withCoder (s.emitted low high).1 (renorm (s.widthProduct low high)).2
    (BitVec.ofNat 16 (s.ix.toNat + s.movedFor low high))

section

variable {s : State} {low high : Word16}

theorem State.fst_renorm_width : (renorm (s.widthProduct low high)).1 = s.movedFor low high := by
  rw [fst_renorm, widthProduct_toNat, State.movedFor]

theorem State.decide_wrapped :
    decide ((s.base + BitVec.ofNat 32 (s.rangeTimes low)).toNat < s.base.toNat) = s.encodeCarries low :=
  decide_eq_decide.mpr (add_lt_iff_carry s.base (rangeTimes_lt s low))

/-- RC_ENCODE after its operand checks (R105). -/
theorem encodeInterval_eq (hh : s.halt = false) (word : Word64) :
    encodeInterval word low high s =
      if s.len.toNat < s.ix.toNat + s.movedFor low high then .next (rcFailed s 1)
      else if s.encodeCarries low = true ∧ s.carryBlocked = true then .next (faulted s word 11)
      else .next (answered (s.encoded low high) (okWord 0 0)) := by
  simp only [encodeInterval, State.fst_renorm_width, State.decide_wrapped, raiseRcError_eq,
    raiseUsageFault_eq_faulted hh, respondOk_eq, Bool.and_eq_true]
  rfl

theorem State.encoded_ix_toNat (hix : s.ix.toNat + s.movedFor low high < 2 ^ 16) :
    (s.encoded low high).ix.toNat = s.ix.toNat + s.movedFor low high := by
  rw [State.encoded, State.withCoder_ix, BitVec.toNat_ofNat, Nat.mod_eq_of_lt hix]

theorem State.encoded_range_toNat :
    (s.encoded low high).range.toNat = newRange (s.range.toNat * (high.toNat - low.toNat)) := by
  rw [State.encoded, State.withCoder_range, snd_renorm_toNat, widthProduct_toNat]

/-- RC_ENCODE changes no byte at or beyond the new `IX`. -/
theorem State.encoded_bufByte_ge {a : Nat} (ha : s.ix.toNat + s.movedFor low high ≤ a) :
    (s.encoded low high).bufByte a = s.bufByte a :=
  (emitBytes_read_outside _ _ _ _ _ _ (.inr ha)).trans (s.bufAfterCarry_read_ge _ (by omega))

/-- Below the old `IX` RC_ENCODE changes what its carry changes. -/
theorem State.encoded_bufByte_lt {a : Nat} (ha : a < s.ix.toNat) :
    (s.encoded low high).bufByte a = Memory.read s.epoch (s.bufAfterCarry (s.encodeCarries low)) a :=
  emitBytes_read_outside _ _ _ _ _ _ (.inl ha)

/-- The main rule of RC_ENCODE on numbers (R105, R106). -/
theorem State.encoded_codedLow (hroom : s.encodeCarries low = true → s.carryBlocked = false)
    (hix : s.ix.toNat + s.movedFor low high < 2 ^ 16) :
    (s.encoded low high).codedLow = (s.codedLow + s.range.toNat * low.toNat) * 256 ^ s.movedFor low high := by
  have hsum := add_carry_toNat s.base (rangeTimes_lt s low)
  rw [State.decide_wrapped] at hsum
  have hlow : (bytesBig s.bufByte s.ix.toNat + (s.encodeCarries low).toNat) * 2 ^ 32
      + (s.base + BitVec.ofNat 32 (s.rangeTimes low)).toNat = s.codedLow + s.range.toNat * low.toNat := by
    rw [Nat.add_mul, Nat.add_assoc, hsum, ← Nat.add_assoc, State.codedLow, State.rangeTimes]
  rw [← hlow, ← State.bytesBig_bufAfterCarry hroom, ← bytesBig_emitBytes, ← State.encoded_ix_toNat hix]
  rfl
end
/-- Settles O29. -/
theorem encodeChecksInOrder : Obligations.EncodeChecksInOrder := by
  intro s base nsym sym hh hlen
  dsimp only
  rw [exec_rcEncode hh hlen, encodeInterval_eq hh]
  split_ifs with hm he hsym hidx hcdf hroom hcarry
  iterate 5 rfl
  · exact ⟨_, _, rfl, rfl, .inr (.inl rfl)⟩
  · exact ⟨_, _, rfl, rfl, .inr (.inr rfl)⟩
  · exact ⟨_, _, rfl, rfl, .inl rfl⟩

/-- Settles O30. -/
theorem encodeFollowsTheMainRule : Obligations.EncodeFollowsTheMainRule := by
  intro s base nsym sym hh hm he hlen hsym hidx hcdf
  have hexec := exec_rcEncode (base := base) (nsym := nsym) (sym := sym) hh hlen
  rw [if_neg (not_not_intro hm), if_neg (by simp [he]), if_neg (by omega), if_neg (by omega),
    if_neg (by omega), encodeInterval_eq hh] at hexec
  refine ⟨fun hroom => hexec.trans (if_pos hroom), fun hroom hblocked => ?_, fun hroom hblocked => ?_⟩
  · exact hexec.trans ((if_neg (Nat.not_lt.mpr hroom)).trans
      (if_pos (hblocked.imp decide_eq_true s.carryBlocked_iff.mpr)))
  · have hfree : ¬ (s.encodeCarries (s.params.cdf (base.toNat + sym.toNat)) = true ∧ s.carryBlocked = true) :=
      fun h => hblocked (h.imp of_decide_eq_true s.carryBlocked_iff.mp)
    have hix := Nat.lt_of_le_of_lt hroom s.len.isLt
    refine ⟨_, hexec.trans ((if_neg (Nat.not_lt.mpr hroom)).trans (if_neg hfree)), ?_, ?_, ?_, fun a ha => ?_, ?_⟩
    · rw [answered_codedLow]
      exact State.encoded_codedLow (fun hc => Bool.eq_false_iff.mpr fun hb => hfree ⟨hc, hb⟩) hix
    · rw [answered_range]
      exact State.encoded_range_toNat
    · rw [answered_ix]
      exact State.encoded_ix_toNat hix
    · rw [answered_bufByte]
      exact State.encoded_bufByte_ge ha
    · simp only [answered, State.encoded, State.withCoder, State.withBuf]

end Sys2Proof.Machine

/-! ## RC_DECODE (R110 to R114)

The symbol search against R111, and the bytes pulled into `BASE`, on numbers. -/

namespace Sys2Proof.Machine

open Sys2Proof.Claims

/-- The search finds the greatest index that satisfies the test. -/
theorem greatestUpTo_eq_some {f : Nat → Bool} {n i : Nat} (hi : i ≤ n) (hf : f i = true)
    (hgreatest : ∀ j, i < j → j ≤ n → f j = false) : greatestUpTo f n = some i := by
  cases h : greatestUpTo f n with
  | none => simp [greatestUpTo_none f n h i hi] at hf
  | some k =>
    obtain ⟨hk, hfk, hk'⟩ := greatestUpTo_some f n k h
    obtain hlt | rfl | hlt := Nat.lt_trichotomy i k
    · simp [hgreatest k hlt hk] at hfk
    · rfl
    · simp [hk' i hlt hi] at hf

/-- The symbol search finds what R111 calls the decoded symbol. -/
theorem findSymbol_eq_some_iff (s : State) (base nsym sym : Nat) :
    s.findSymbol base nsym = some sym ↔ isDecoded s base nsym sym := by
  refine ⟨findSymbol_some s base nsym sym, fun ⟨hsym, hle, habove⟩ => ?_⟩
  have hgreatest : greatestUpTo (fun i => decide (s.rangeTimes (s.params.cdf (base + i)) ≤ s.base.toNat)) nsym =
      some sym :=
    greatestUpTo_eq_some (by omega) (decide_eq_true hle) fun j hj hn =>
      decide_eq_false (Nat.not_le.mpr (habove j hj hn))
  simp only [State.findSymbol, hgreatest, if_neg (show sym ≠ nsym by omega)]

theorem findSymbol_eq_none_of_forall {s : State} {base nsym : Nat} (h : ∀ sym, ¬ isDecoded s base nsym sym) :
    s.findSymbol base nsym = none :=
  Option.eq_none_iff_forall_ne_some.mpr fun sym hsym => h sym ((findSymbol_eq_some_iff s base nsym sym).mp hsym)

/-- Pulling a byte moves the register up and puts the byte below (R114). -/
theorem shiftLeft_or_byte (bn : Word32) (byte : Byte) :
    (bn <<< 8) ||| byte.setWidth 32 = BitVec.ofNat 32 (bn.toNat * 2 ^ 8 + byte.toNat) := by
  have hbyte := byte.isLt
  have hshift : (bn <<< 8).toNat = (bn.toNat % 2 ^ 24) <<< 8 := by
    simp only [BitVec.toNat_shiftLeft, Nat.shiftLeft_eq]
    omega
  apply BitVec.eq_of_toNat_eq
  rw [BitVec.toNat_or, BitVec.toNat_setWidth_of_le (by decide), hshift, ← Nat.shiftLeft_add_eq_or_of_lt hbyte,
    Nat.shiftLeft_eq, BitVec.toNat_ofNat]
  omega

theorem moved_le_two (prod : Nat) : moved prod ≤ 2 := by
  unfold moved
  split_ifs <;> omega

/-- `BASE` after at most two bytes have been pulled into the bottom of `bn`, as a number (R113, R114). -/
theorem pullBytes_eq (s : State) {n : Nat} (hn : n ≤ 2) (bn : Word32) (ix : Nat) :
    pullBytes s n bn ix = BitVec.ofNat 32
      (if n = 0 then bn.toNat
       else if n = 1 then bn.toNat * 2 ^ 8 + payload s s.len.toNat (4 + ix)
       else bn.toNat * 2 ^ 16 + payload s s.len.toNat (4 + ix) * 2 ^ 8 + payload s s.len.toNat (5 + ix)) := by
  match n, hn with
  | 0, _ => simp [pullBytes]
  | 1, _ => rw [pullBytes, pullBytes, shiftLeft_or_byte, State.payloadByte_toNat]; rfl
  | 2, _ =>
    rw [pullBytes, pullBytes, pullBytes, shiftLeft_or_byte, shiftLeft_or_byte, State.payloadByte_toNat,
      State.payloadByte_toNat, if_neg (by decide), if_neg (by decide), show 4 + (ix + 1) = 5 + ix by omega]
    apply BitVec.eq_of_toNat_eq
    simp only [BitVec.toNat_ofNat]
    omega

/-- The state after an RC_DECODE that succeeds, but for the response. -/
def State.decoded (s : State) (low high : Word16) : State :=
  s.withCoder (pullBytes s (s.movedFor low high) (s.base - BitVec.ofNat 32 (s.rangeTimes low)) s.ix.toNat)
    (renorm (s.widthProduct low high)).2 (BitVec.ofNat 16 (s.ix.toNat + s.movedFor low high))

/-- RC_DECODE with its symbol found (R113). -/
theorem decodeSymbol_eq (s : State) (base : Nat) {sym : Nat} (hsym : sym < 2 ^ 32) :
    decodeSymbol base sym s =
      if s.len.toNat < s.ix.toNat + s.movedFor (s.params.cdf (base + sym)) (s.params.cdf (base + sym + 1)) then
        .next (rcFailed s 5)
      else .next (answered (s.decoded (s.params.cdf (base + sym)) (s.params.cdf (base + sym + 1)))
        (okWord 0 sym)) := by
  simp only [decodeSymbol, State.fst_renorm_width, raiseRcError_eq, respondOk_eq, BitVec.toNat_ofNat,
    Nat.mod_eq_of_lt hsym]
  rfl

/-- The main rule of RC_DECODE on numbers (R113). -/
theorem State.decoded_eq {s : State} {low high : Word16} (hle : s.range.toNat * low.toNat ≤ s.base.toNat) :
    s.decoded low high =
      let prod := s.range.toNat * (high.toNat - low.toNat)
      let n := moved prod
      let rest := s.base.toNat - s.range.toNat * low.toNat
      { s with
        base := BitVec.ofNat 32
          (if n = 0 then rest
           else if n = 1 then rest * 2 ^ 8 + payload s s.len.toNat (4 + s.ix.toNat)
           else rest * 2 ^ 16 + payload s s.len.toNat (4 + s.ix.toNat) * 2 ^ 8
             + payload s s.len.toNat (5 + s.ix.toNat)),
        range := BitVec.ofNat 16 (newRange prod),
        ix := BitVec.ofNat 16 (s.ix.toNat + n) } := by
  have hlow : (BitVec.ofNat 32 (s.rangeTimes low)).toNat = s.range.toNat * low.toNat := by
    rw [BitVec.toNat_ofNat, Nat.mod_eq_of_lt (rangeTimes_lt s low), State.rangeTimes]
  have hrest : (s.base - BitVec.ofNat 32 (s.rangeTimes low)).toNat = s.base.toNat - s.range.toNat * low.toNat := by
    rw [BitVec.toNat_sub_of_le (by rw [BitVec.le_def, hlow]; exact hle), hlow]
  have hrange : (renorm (s.widthProduct low high)).2 =
      BitVec.ofNat 16 (newRange (s.range.toNat * (high.toNat - low.toNat))) := by
    rw [← widthProduct_toNat, ← snd_renorm_toNat, BitVec.ofNat_toNat, BitVec.setWidth_eq]
  rw [State.decoded, State.movedFor, pullBytes_eq s (moved_le_two _), hrest, hrange]
  rfl

/-- Settles O32. -/
theorem decodeChecksInOrder : Obligations.DecodeChecksInOrder := by
  intro s base nsym hint hh hlen
  dsimp only
  rw [exec_rcDecode hh hlen]
  split_ifs with hm he hnsym hidx
  iterate 4 rfl
  cases hfind : s.findSymbol base.toNat nsym.toNat with
  | none => exact ⟨_, _, rfl, rfl, .inr (.inl rfl)⟩
  | some sym =>
    obtain ⟨hsym, -, -⟩ := findSymbol_some _ _ _ _ hfind
    have hlt : sym < 2 ^ 32 := by have := nsym.isLt; omega
    have hword : (BitVec.ofNat 32 sym).toNat = sym := by rw [BitVec.toNat_ofNat, Nat.mod_eq_of_lt hlt]
    rw [Option.elim_some, decodeSymbol_eq s _ hlt]
    split
    · exact ⟨_, _, rfl, rfl, .inr (.inr rfl)⟩
    · refine ⟨_, _, rfl, rfl, .inl ?_⟩
      rw [← hword]
      exact ⟨classOf_okWord_zero _, by rwa [← BitVec.toNat_zero (w := 20), r0Of_okWord, hword]⟩

/-- Settles O33. -/
theorem decodeFollowsTheMainRule : Obligations.DecodeFollowsTheMainRule := by
  intro s base nsym hint hh hm he hlen hnsym hidx
  have hexec := exec_rcDecode (base := base) (nsym := nsym) (hint := hint) hh hlen
  rw [if_neg (not_not_intro hm), if_neg (by simp [he]), if_neg (by omega), if_neg (by omega)] at hexec
  refine ⟨fun hnone => ?_, fun sym hsym => ?_⟩
  · rw [hexec, findSymbol_eq_none_of_forall hnone]
    rfl
  · obtain ⟨hlt, hle, -⟩ := id hsym
    have hword : sym < 2 ^ 32 := by have := nsym.isLt; omega
    rw [(findSymbol_eq_some_iff _ _ _ _).mpr hsym, Option.elim_some, decodeSymbol_eq s _ hword,
      State.decoded_eq hle] at hexec
    exact ⟨fun hroom => hexec.trans (if_pos hroom),
      fun hroom => hexec.trans (if_neg (Nat.not_lt.mpr hroom))⟩

end Sys2Proof.Machine

/-! ## RC_ENC_WRAPUP (R118)

The rounded top bits of `BASE`, the one or two bytes that store them and the padding, on numbers. -/

namespace Sys2Proof.Machine

open Sys2Proof.Claims

/-! ### Rounding -/

/-- `BASE` rounded up to its top `b` bits, as a number of `b` bits that may carry (R118). -/
def roundedUp (base : Word32) (b : Nat) : Nat := base.toNat / 2 ^ (32 - b) + 1

/-- Masking off the low `k` bits. -/
theorem and_shiftLeft_ones_toNat (x : Word32) (k : Nat) :
    (x &&& ((0xFFFFFFFF : Word32) <<< k)).toNat = x.toNat / 2 ^ k * 2 ^ k := by
  have hones : (0xFFFFFFFF : Word32) = BitVec.allOnes 32 := by decide
  have hmask : x &&& (BitVec.allOnes 32 <<< k) = (x >>> k) <<< k := by
    ext i hi
    simp only [BitVec.getElem_and, BitVec.getElem_shiftLeft, BitVec.getElem_ushiftRight, BitVec.getElem_allOnes]
    by_cases hk : i < k
    · simp [hk]
    · simp [hk, show k + (i - k) = i by omega, hi]
  have hle : x.toNat / 2 ^ k * 2 ^ k < 2 ^ 32 := Nat.lt_of_le_of_lt (Nat.div_mul_le_self _ _) x.isLt
  rw [hones, hmask, BitVec.toNat_shiftLeft, BitVec.toNat_ushiftRight, Nat.shiftLeft_eq, Nat.shiftRight_eq_div_pow,
    Nat.mod_eq_of_lt hle]

section

variable {base : Word32} {b : Nat}

theorem roundedUp_le (hb : b ≤ 24) : roundedUp base b ≤ 2 ^ b := by
  have hlt := base.isLt
  have hpow : 2 ^ 32 = 2 ^ b * 2 ^ (32 - b) := by rw [← pow_add]; congr 1; omega
  have hdiv : base.toNat / 2 ^ (32 - b) < 2 ^ b :=
    Nat.div_lt_of_lt_mul (by rw [Nat.mul_comm, ← hpow]; exact hlt)
  unfold roundedUp
  omega

/-- `b24` of R118 is the rounded number at the top of 24 bits. -/
theorem roundedBase_toNat (hpos : 1 ≤ b) (hb : b ≤ 24) :
    (roundedBase base b).toNat = roundedUp base b * 2 ^ (24 - b) := by
  have hlt := base.isLt
  have hhalf : (0x00800000 : Word32).toNat / 2 ^ (b - 1) = 2 ^ (24 - b) := by
    have hpow : (0x00800000 : Word32).toNat = 2 ^ (24 - b) * 2 ^ (b - 1) := by
      rw [← pow_add, show 24 - b + (b - 1) = 23 by omega]; rfl
    rw [hpow, Nat.mul_div_cancel _ (Nat.two_pow_pos _)]
  have hhalf_le : 2 ^ (24 - b) ≤ 2 ^ 23 := Nat.pow_le_pow_right (by decide) (by omega)
  have hdiv : base.toNat / 2 ^ 8 / 2 ^ (24 - b) = base.toNat / 2 ^ (32 - b) := by
    rw [Nat.div_div_eq_div_mul, ← pow_add, show 8 + (24 - b) = 32 - b by omega]
  rw [roundedBase, and_shiftLeft_ones_toNat, BitVec.toNat_add, BitVec.toNat_ushiftRight, BitVec.toNat_ushiftRight,
    Nat.shiftRight_eq_div_pow, Nat.shiftRight_eq_div_pow, hhalf, Nat.mod_eq_of_lt (by omega),
    Nat.add_div_right _ (Nat.two_pow_pos _), hdiv, roundedUp]

/-- The rounding carries out of 24 bits exactly if the rounded number has more than `b` bits. -/
theorem roundedBase_carry (hpos : 1 ≤ b) (hb : b ≤ 24) :
    (roundedBase base b).getLsbD 24 = decide (2 ^ b ≤ roundedUp base b) := by
  have hpow : 2 ^ 24 = 2 ^ b * 2 ^ (24 - b) := by rw [← pow_add]; congr 1; omega
  have hle := roundedUp_le (base := base) hb
  have hdiv : (roundedBase base b).toNat / 2 ^ 24 = roundedUp base b / 2 ^ b := by
    rw [roundedBase_toNat hpos hb, hpow, Nat.mul_div_mul_right _ _ (Nat.two_pow_pos _)]
  rw [← BitVec.testBit_toNat, Nat.testBit_eq_decide_div_mod_eq, hdiv, decide_eq_decide]
  obtain heq | hlt := Nat.eq_or_lt_of_le hle
  · simp [heq]
  · simp [Nat.div_eq_of_lt hlt, hlt]

end

/-! ### Storing and padding -/

/-- The bytes of R118 hold the top `8` or `16` of 24 bits. -/
theorem bytesBig_storeRounded (epoch : Nat) (b24 : Word32) (b ix : Nat) (buf : Memory) :
    bytesBig (Memory.read epoch (storeRounded b24 b ix buf)) (ix + bytesFor b) =
      bytesBig (Memory.read epoch buf) ix * 256 ^ bytesFor b
        + b24.toNat / 2 ^ (24 - 8 * bytesFor b) % 256 ^ bytesFor b := by
  unfold storeRounded bytesFor
  by_cases hb : b ≤ 8
  · simp only [hb, Nat.not_lt.mpr hb, if_true, if_false, bytesBig_write, BitVec.extractLsb'_toNat,
      Nat.shiftRight_eq_div_pow]
    omega
  · simp only [hb, Nat.not_le.mp hb, if_true, if_false]
    rw [show ix + 2 = ix + 1 + 1 from rfl, bytesBig_write, bytesBig_write, BitVec.extractLsb'_toNat,
      BitVec.extractLsb'_toNat, Nat.shiftRight_eq_div_pow, Nat.shiftRight_eq_div_pow]
    omega

theorem storeRounded_read_outside (epoch : Nat) (b24 : Word32) (b ix : Nat) (buf : Memory) {a : Nat}
    (ha : a < ix ∨ ix + bytesFor b ≤ a) :
    Memory.read epoch (storeRounded b24 b ix buf) a = Memory.read epoch buf a := by
  unfold storeRounded
  by_cases hb : b ≤ 8
  · rw [bytesFor, if_pos hb] at ha
    rw [if_neg (Nat.not_lt.mpr hb), Memory.read_write_other _ _ _ _ _ (by omega)]
  · rw [bytesFor, if_neg hb] at ha
    rw [if_pos (Nat.not_le.mp hb), Memory.read_write_other _ _ _ _ _ (by omega),
      Memory.read_write_other _ _ _ _ _ (by omega)]

theorem padLast_read_other (epoch : Nat) (bits : Word32) (last : Nat) (buf : Memory) {a : Nat} (ha : a ≠ last) :
    Memory.read epoch (padLast epoch bits last buf) a = Memory.read epoch buf a := by
  unfold padLast
  split
  · rfl
  · exact Memory.read_write_other _ _ _ _ _ ha

/-- Ones below a multiple of `2 ^ k`. -/
theorem or_ones_eq_add {x k : Nat} (h : 2 ^ k ∣ x) : x ||| (2 ^ k - 1) = x + (2 ^ k - 1) := by
  obtain ⟨m, rfl⟩ := h
  have hpos := Nat.two_pow_pos k
  rw [Nat.mul_comm, ← Nat.shiftLeft_eq, Nat.shiftLeft_add_eq_or_of_lt (by omega)]

/-- Padding fills the last `k` bits of the payload, which were zero, with ones (R118). -/
theorem bytesBig_padLast {epoch : Nat} {bits : Word32} {n k : Nat} {buf : Memory} (hk : k < 8)
    (hbits : (bits.toNat + k) % 8 = 0) (hdvd : 2 ^ k ∣ bytesBig (Memory.read epoch buf) (n + 1)) :
    bytesBig (Memory.read epoch (padLast epoch bits n buf)) (n + 1) =
      bytesBig (Memory.read epoch buf) (n + 1) + (2 ^ k - 1) := by
  obtain rfl | hpos := Nat.eq_zero_or_pos k
  · rw [padLast, if_pos (by omega)]
    simp
  · have hbyte : 2 ^ k ∣ (Memory.read epoch buf n).toNat := by
      have h256 : 2 ^ k ∣ bytesBig (Memory.read epoch buf) n * 256 :=
        Dvd.dvd.mul_left (pow_dvd_pow 2 (show k ≤ 8 by omega)) _
      exact (Nat.dvd_add_right h256).mp hdvd
    rw [padLast, if_neg (by omega), bytesBig_write, BitVec.toNat_or, paddingMask_toNat hk hpos hbits,
      or_ones_eq_add hbyte, ← Nat.add_assoc, bytesBig]

/-! ### The command -/

/-- The rounding of RC_ENC_WRAPUP carries into the emitted bytes (R118). -/
def State.wrapCarries (s : State) (b : Nat) : Bool := decide (2 ^ b ≤ roundedUp s.base b)

/-- `BUF` after an RC_ENC_WRAPUP that succeeds: the carry, the stored bytes, the padding (R118). -/
def State.wrappedBuf (s : State) (b : Nat) : Memory :=
  padLast s.epoch s.rcBits (s.ix.toNat + bytesFor b - 1)
    (storeRounded (roundedBase s.base b) b s.ix.toNat (s.bufAfterCarry (s.wrapCarries b)))

/-- The state after an RC_ENC_WRAPUP that succeeds, but for the response. -/
def State.wrapped (s : State) (b : Nat) : State :=
  (s.withBuf (s.wrappedBuf b)).withFinished (BitVec.ofNat 16 (s.ix.toNat + bytesFor b))

theorem bytesFor_pos (b : Nat) : 1 ≤ bytesFor b := by
  unfold bytesFor
  split <;> omega

section

variable {s : State} {b : Nat}

/-- RC_ENC_WRAPUP after its checks (R118). -/
theorem wrapUp_eq (hh : s.halt = false) (hb : lengthTerm s.range.toNat b) (word : Word64) :
    wrapUp word s =
      if s.len.toNat < s.ix.toNat + bytesFor b then .next (rcFailed s 1)
      else if s.wrapCarries b = true ∧ s.carryBlocked = true then .next (faulted s word 11)
      else .next (answered (s.wrapped b) (okWord (s.ix.toNat + bytesFor b) (8 * s.ix.toNat + b))) := by
  obtain ⟨h2, h10⟩ := lengthTerm_bounds hb
  have hcarry : (roundedBase s.base b).getLsbD 24 = s.wrapCarries b := roundedBase_carry (by omega) (by omega)
  simp only [wrapUp, State.bitsToStore_eq hb, hcarry, raiseRcError_eq, raiseUsageFault_eq_faulted hh, respond_ok_eq,
    State.rcBytes_setWidth_toNat hb, State.rcBits_toNat hb, Bool.and_eq_true]
  rfl

theorem State.wrapped_ix_toNat (hix : s.ix.toNat + bytesFor b < 2 ^ 16) :
    (s.wrapped b).ix.toNat = s.ix.toNat + bytesFor b := by
  rw [State.wrapped, State.withFinished_ix, BitVec.toNat_ofNat, Nat.mod_eq_of_lt hix]

theorem State.wrapped_bufByte (a : Nat) :
    (s.wrapped b).bufByte a = Memory.read s.epoch (s.wrappedBuf b) a := rfl

/-- RC_ENC_WRAPUP changes no byte beyond the payload. -/
theorem State.wrapped_bufByte_ge {a : Nat} (ha : s.ix.toNat + bytesFor b ≤ a) :
    (s.wrapped b).bufByte a = s.bufByte a := by
  have hpos := bytesFor_pos b
  rw [State.wrapped_bufByte, State.wrappedBuf, padLast_read_other _ _ _ _ (by omega),
    storeRounded_read_outside _ _ _ _ _ (.inr ha), s.bufAfterCarry_read_ge _ (by omega)]

/-- Below the old `IX` RC_ENC_WRAPUP changes what its carry changes. -/
theorem State.wrapped_bufByte_lt {a : Nat} (ha : a < s.ix.toNat) :
    (s.wrapped b).bufByte a = Memory.read s.epoch (s.bufAfterCarry (s.wrapCarries b)) a := by
  have hpos := bytesFor_pos b
  rw [State.wrapped_bufByte, State.wrappedBuf, padLast_read_other _ _ _ _ (by omega),
    storeRounded_read_outside _ _ _ _ _ (.inl ha)]

/-- The number that R118 rounds: the emitted bytes followed by the top `b` bits of `BASE`, rounded up. -/
theorem State.codedLow_rounded (hb : b ≤ 24) :
    s.codedLow / 2 ^ (32 - b) + 1 = bytesBig s.bufByte s.ix.toNat * 2 ^ b + roundedUp s.base b := by
  have hpow : (2 : Nat) ^ 32 = 2 ^ b * 2 ^ (32 - b) := by rw [← pow_add]; congr 1; omega
  rw [State.codedLow, hpow, ← Nat.mul_assoc, Nat.add_comm (_ * _), Nat.add_mul_div_right _ _ (Nat.two_pow_pos _),
    roundedUp]
  omega

/-- The rounded number is its carry and its `b` bits. -/
theorem State.wrapCarries_add_mod (hb : b ≤ 24) :
    (s.wrapCarries b).toNat * 2 ^ b + roundedUp s.base b % 2 ^ b = roundedUp s.base b := by
  obtain heq | hlt := Nat.eq_or_lt_of_le (roundedUp_le (base := s.base) hb)
  · simp [State.wrapCarries, heq]
  · simp [State.wrapCarries, hlt, Nat.mod_eq_of_lt hlt]

/-- The payload before the padding: the emitted bytes and the rounded number, at the top of the last bytes. -/
theorem bytesBig_stored (hb : lengthTerm s.range.toNat b) (hroom : s.wrapCarries b = true → s.carryBlocked = false) :
    bytesBig (Memory.read s.epoch
        (storeRounded (roundedBase s.base b) b s.ix.toNat (s.bufAfterCarry (s.wrapCarries b))))
        (s.ix.toNat + bytesFor b) =
      (s.codedLow / 2 ^ (32 - b) + 1) * 2 ^ (8 * bytesFor b - b) := by
  obtain ⟨h2, h10⟩ := lengthTerm_bounds hb
  have hfor : b ≤ 8 * bytesFor b ∧ bytesFor b ≤ 2 := by unfold bytesFor; split <;> omega
  have hbytes : 256 ^ bytesFor b = 2 ^ b * 2 ^ (8 * bytesFor b - b) := by
    rw [← pow_add, show 256 = 2 ^ 8 from rfl, ← pow_mul]; congr 1; omega
  have htop : roundedUp s.base b * 2 ^ (24 - b) / 2 ^ (24 - 8 * bytesFor b) =
      roundedUp s.base b * 2 ^ (8 * bytesFor b - b) := by
    rw [show 24 - b = 8 * bytesFor b - b + (24 - 8 * bytesFor b) by omega, pow_add, ← Nat.mul_assoc,
      Nat.mul_div_cancel _ (Nat.two_pow_pos _)]
  rw [bytesBig_storeRounded, State.bytesBig_bufAfterCarry hroom, roundedBase_toNat (by omega) (by omega), htop, hbytes,
    Nat.mul_mod_mul_right, State.codedLow_rounded (by omega)]
  conv_rhs => rw [← State.wrapCarries_add_mod (show b ≤ 24 by omega)]
  ring

/-- RC_ENC_WRAPUP on numbers (R118). -/
theorem State.wrapped_bytesBig (hb : lengthTerm s.range.toNat b)
    (hroom : s.wrapCarries b = true → s.carryBlocked = false) :
    bytesBig (s.wrapped b).bufByte (s.ix.toNat + bytesFor b) =
      (s.codedLow / 2 ^ (32 - b) + 1) * 2 ^ (8 * bytesFor b - b) + (2 ^ (8 * bytesFor b - b) - 1) := by
  obtain ⟨hk, hbits⟩ := State.padding_fills hb
  have hstored := bytesBig_stored hb hroom
  have hpos := bytesFor_pos b
  have hlast : s.ix.toNat + bytesFor b = s.ix.toNat + bytesFor b - 1 + 1 := by omega
  rw [hlast] at hstored
  have hpadded := bytesBig_padLast hk hbits (Dvd.intro_left _ hstored.symm)
  rw [hstored, ← hlast] at hpadded
  rw [bytesBig_congr fun a _ => State.wrapped_bufByte a, State.wrappedBuf, hpadded]

end

/-- Settles O36. -/
theorem wrapUpRoundsUpAndPads : Obligations.WrapUpRoundsUpAndPads := by
  intro s b hh hlen hb
  have hexec := exec_rcEncWrapup hh hlen
  rw [wrapUp_eq hh hb] at hexec
  dsimp only
  refine ⟨fun hm => ?_, fun hm he => ?_, fun hm he hroom => ?_, fun hm he hroom hblocked => ?_,
    fun hm he hroom hblocked => ?_⟩
  · rw [hexec, if_pos hm]
  · rw [hexec, if_neg (by simp [hm]), if_pos he]
  all_goals rw [if_neg (not_not_intro hm), if_neg (by simp [he])] at hexec
  · rw [hexec, if_pos hroom]
  · have hcond : s.wrapCarries b = true ∧ s.carryBlocked = true :=
      hblocked.imp decide_eq_true s.carryBlocked_iff.mpr
    rw [hexec, if_neg (Nat.not_lt.mpr hroom), if_pos hcond]
  · have hfree : ¬ (s.wrapCarries b = true ∧ s.carryBlocked = true) :=
      fun h => hblocked (h.imp of_decide_eq_true s.carryBlocked_iff.mp)
    rw [if_neg (Nat.not_lt.mpr hroom), if_neg hfree] at hexec
    refine ⟨_, hexec, ?_, ?_, fun a ha => ?_, ?_⟩
    · rw [answered_bufByte]
      exact State.wrapped_bytesBig hb fun hc => Bool.eq_false_iff.mpr fun h => hfree ⟨hc, h⟩
    · rw [answered_ix]
      exact State.wrapped_ix_toNat (Nat.lt_of_le_of_lt hroom s.len.isLt)
    · rw [answered_bufByte]
      exact State.wrapped_bufByte_ge ha
    · simp only [answered, State.wrapped, State.withFinished, State.withBuf]

end Sys2Proof.Machine

/-! ## The carry of a command (R107)

What RC_ENCODE and RC_ENC_WRAPUP do below the old `IX` where they succeed, and when they raise UF_CARRY, from any
state. -/

namespace Sys2Proof.Machine

open Sys2Proof.Claims

/-! ### Where the command succeeds -/

section

variable {s t u : State} {r1 : BitVec 20} {r0 : Word32} {c : Bool}

/-- What an RC_ENCODE that completes leaves (R105). -/
theorem Completes.rcEncode_eq {base nsym sym : Word16} (h : Completes s (.rcEncode base nsym sym) u r1 r0) :
    u = s.encoded (s.params.cdf (base.toNat + sym.toNat)) (s.params.cdf (base.toNat + sym.toNat + 1)) ∧
      (s.encodeCarries (s.params.cdf (base.toNat + sym.toNat)) = true → s.carryBlocked = false) := by
  cases h with
  | rcEncode _ _ _ _ _ _ hlow hhigh _ hbn hcarry hroom hn _ =>
    subst hlow hhigh hbn hcarry hn
    rw [State.decide_wrapped] at hroom ⊢
    rw [State.fst_renorm_width]
    exact ⟨rfl, hroom⟩

/-- What an RC_ENC_WRAPUP that completes leaves (R118). -/
theorem Completes.rcEncWrapup_eq {b : Nat} (hb : lengthTerm s.range.toNat b)
    (h : Completes s .rcEncWrapup u r1 r0) :
    u = s.wrapped b ∧ (s.wrapCarries b = true → s.carryBlocked = false) := by
  obtain ⟨h2, h10⟩ := lengthTerm_bounds hb
  have hcarries : (roundedBase s.base b).getLsbD 24 = s.wrapCarries b := roundedBase_carry (by omega) (by omega)
  cases h with
  | rcEncWrapup _ _ _ _ hbits hnw hb24 hcarry hroom _ hbuf =>
    rw [State.bitsToStore_eq hb] at hbits
    subst hbits hb24 hnw hbuf hcarry
    rw [hcarries] at hroom ⊢
    exact ⟨rfl, hroom⟩

/-- Below the old `IX` the bytes of `t` are those of `s` after the carry `c`, which some byte could take. -/
def CarriesBelow (s t : State) (c : Bool) : Prop :=
  (c = true → s.carryBlocked = false) ∧
    ∀ a, a < s.ix.toNat → t.bufByte a = Memory.read s.epoch (s.bufAfterCarry c) a

theorem CarriesBelow.carryWalked (h : CarriesBelow s t true) : carryWalked s t := by
  obtain ⟨hroom, hbytes⟩ := h
  obtain ⟨j, hj, hne, hone, habove, hkept⟩ := State.bufAfterCarry_carried (hroom rfl)
  refine (carryWalked_iff s t).mpr
    ⟨j, hj, hne, by rw [hbytes j hj, hone], fun a hja ha => ?_, fun a ha => ?_⟩
  · rw [hbytes a ha]
    exact habove a hja ha
  · rw [hbytes a (by omega), hkept a ha]

theorem CarriesBelow.bufByte_eq (h : CarriesBelow s t false) :
    ∀ a, a < s.ix.toNat → t.bufByte a = s.bufByte a := h.2

theorem carriesBelow_rcEncode {base nsym sym : Word16} {r : Word64}
    (h : exec (.rcEncode base nsym sym) s = .next t) (hr : t.resp = some r) (hok : classOf r = 0) :
    CarriesBelow s t (s.encodeCarries (s.params.cdf (base.toNat + sym.toNat))) := by
  obtain ⟨u, r1, r0, hc, rfl⟩ | ⟨k, x, r0, -, hs, -⟩ := (exec_answers h).of_classOf_ok hr hok
  · obtain ⟨rfl, hroom⟩ := hc.rcEncode_eq
    exact ⟨hroom, fun a ha => State.encoded_bufByte_lt ha⟩
  · cases hs

theorem carriesBelow_rcEncWrapup {b : Nat} {r : Word64} (hb : lengthTerm s.range.toNat b)
    (h : exec .rcEncWrapup s = .next t) (hr : t.resp = some r) (hok : classOf r = 0) :
    CarriesBelow s t (s.wrapCarries b) := by
  obtain ⟨u, r1, r0, hc, rfl⟩ | ⟨k, x, r0, -, hs, -⟩ := (exec_answers h).of_classOf_ok hr hok
  · obtain ⟨rfl, hroom⟩ := hc.rcEncWrapup_eq hb
    exact ⟨hroom, fun a ha => State.wrapped_bufByte_lt ha⟩
  · cases hs

end

/-! ### Where it raises UF_CARRY -/

/-- Only UF_CARRY answers the response of code 11 (R195). -/
theorem faultWord_code_eq_eleven_iff (f : UsageFault) : faultWord f.code.toNat = faultWord 11 ↔ f = .carry := by
  cases f <;> decide

/-- An answer that is not of class FAULT is not that of UF_CARRY. -/
theorem ne_faultWord_carry_of_classOf_ne {word : Word64} (h : classOf word ≠ 2) : word ≠ faultWord 11 := by
  rintro rfl
  exact h rfl

/-- A command that answers UF_CARRY has raised it. -/
theorem Answers.eq_usageFaulted_of_carry {i : Instr} {s t : State} (h : Answers i s t)
    (hr : t.resp = some (faultWord 11)) : t = usageFaulted s (encode i) .carry := by
  have hclass : t.resp.map classOf = some 2 := by rw [hr]; rfl
  cases h with
  | fault f =>
    rw [usageFaulted_resp, Option.some.injEq, faultWord_code_eq_eleven_iff] at hr
    rw [hr]
  | sticky | raised | encTooLong | decTooLong | completes | stores => simp at hclass

/-- `CarryFaultOnlyIf p o`: the outcome `o` answers UF_CARRY only if `p` holds. -/
def CarryFaultOnlyIf (p : Prop) (o : Out) : Prop :=
  ∀ t, o = .next t → t.resp = some (faultWord 11) → p

namespace CarryFaultOnlyIf

variable {p : Prop} {s : State}

theorem of_holds (hp : p) (o : Out) : CarryFaultOnlyIf p o := fun _ _ _ => hp

theorem of_resp {u : State} {word : Word64} (hu : u.resp = some word) (hne : word ≠ faultWord 11) :
    CarryFaultOnlyIf p (.next u) := by
  rintro t ⟨⟩ hr
  exact absurd (Option.some.inj (hu.symm.trans hr)) hne

theorem respond (r1 : BitVec 20) (r0 : Word32) (u : State) :
    CarryFaultOnlyIf p (Machine.respond .ok 0 r1 r0 u) := by
  rw [respond_ok_eq]
  exact of_resp rfl (ne_faultWord_carry_of_classOf_ne (by simp))

theorem raiseRcError (e : RcError) : CarryFaultOnlyIf p (Machine.raiseRcError e s) := by
  rw [raiseRcError_eq]
  exact of_resp rfl (ne_faultWord_carry_of_classOf_ne (by simp))

theorem refuseErr : CarryFaultOnlyIf p (Machine.refuseErr s) := by
  rw [refuseErr_eq]
  exact of_resp rfl (ne_faultWord_carry_of_classOf_ne (by simp))

/-- Any other usage fault. -/
theorem raise (word : Word64) (f : UsageFault) (hf : f ≠ .carry := by decide) :
    CarryFaultOnlyIf p (raiseUsageFault word f s) := by
  rw [raiseUsageFault_eq]
  exact of_resp (usageFaulted_resp s word f) ((faultWord_code_eq_eleven_iff f).not.mpr hf)

theorem ite {q : Prop} [Decidable q] {a b : Out} (ha : CarryFaultOnlyIf p a) (hb : CarryFaultOnlyIf p b) :
    CarryFaultOnlyIf p (if q then a else b) := by
  split
  · exact ha
  · exact hb

theorem inMode {word : Word64} {m : RcMode} {k : Out} (hk : s.halt = false → CarryFaultOnlyIf p k) :
    CarryFaultOnlyIf p (Machine.inMode word m s k) := by
  obtain ⟨-, h⟩ | ⟨-, -, h⟩ | ⟨-, -, -, h⟩ | ⟨hh, -, -, h⟩ := inMode_cases word m s k <;> rw [h]
  · exact raise word .halted
  · exact raise word .mode
  · exact refuseErr
  · exact hk hh

end CarryFaultOnlyIf

theorem rcEncode_carryFaultOnlyIf (s : State) (base nsym sym : Word16) :
    CarryFaultOnlyIf (s.halt = false ∧ s.encodeCarries (s.params.cdf (base.toNat + sym.toNat)) = true ∧
      s.carryBlocked = true) (exec (.rcEncode base nsym sym) s) := by
  refine .inMode fun hh => .ite (.raise _ .symbol) (.ite (.raise _ .addr) (.ite (.raise _ .cdf) ?_))
  obtain ⟨-, h⟩ | ⟨-, hcarry, hblocked, h⟩ | ⟨-, -, h⟩ := encodeInterval_cases
    (encode (.rcEncode base nsym sym))
    (s.params.cdf (base.toNat + sym.toNat)) (s.params.cdf (base.toNat + sym.toNat + 1)) s <;> rw [h]
  · exact .raiseRcError _
  · exact .of_holds ⟨hh, State.decide_wrapped ▸ hcarry, hblocked⟩ _
  · exact .respond _ _ _

theorem rcEncWrapup_carryFaultOnlyIf {s : State} {b : Nat} (hb : lengthTerm s.range.toNat b) :
    CarryFaultOnlyIf (s.halt = false ∧ s.wrapCarries b = true ∧ s.carryBlocked = true) (exec .rcEncWrapup s) := by
  obtain ⟨h2, h10⟩ := lengthTerm_bounds hb
  refine .inMode fun hh => .ite (.raise _ .addr) ?_
  obtain ⟨-, h⟩ | ⟨-, hcarry, hblocked, h⟩ | ⟨-, -, h⟩ := wrapUp_cases (encode .rcEncWrapup) s <;> rw [h]
  · exact .raiseRcError _
  · rw [State.bitsToStore_eq hb, roundedBase_carry (by omega) (by omega)] at hcarry
    exact .of_holds ⟨hh, hcarry, hblocked⟩ _
  · exact .respond _ _ _

/-- What the statement says of a command's carry `c`, from what the command does below `IX` where it succeeds and
when it raises UF_CARRY. -/
theorem carry_clauses {i : Instr} {s t : State} {r : Word64} {c : Bool} {carry : Prop} (hcarry : carry ↔ c = true)
    (h : exec i s = .next t) (hr : t.resp = some r) (hok : classOf r = 0 → CarriesBelow s t c)
    (hfault : CarryFaultOnlyIf (s.halt = false ∧ c = true ∧ s.carryBlocked = true) (exec i s)) :
    (classOf r = 0 → carry → carryWalked s t) ∧
    (classOf r = 0 → ¬ carry → ∀ a, a < s.ix.toNat → t.bufByte a = s.bufByte a) ∧
    (r = faultWord 11 → carry ∧ noRoomForCarry s ∧ t = faulted s (encode i) 11) := by
  refine ⟨fun hclass hc => ?_, fun hclass hc => ?_, ?_⟩
  · exact (hcarry.mp hc ▸ hok hclass).carryWalked
  · have hfalse : c = false := Bool.eq_false_iff.mpr (hcarry.not.mp hc)
    exact (hfalse ▸ hok hclass).bufByte_eq
  · rintro rfl
    obtain ⟨hh, hc, hblocked⟩ := hfault t h hr
    refine ⟨hcarry.mpr hc, s.carryBlocked_iff.mp hblocked, ?_⟩
    rw [(exec_answers h).eq_usageFaulted_of_carry hr, usageFaulted_of_running hh]
    rfl

/-- Settles O31, for the two commands with a carry. -/
theorem carryWalksBackOverFF : Obligations.CarryWalksBackOverFF := by
  rintro i s t r carry (⟨base, nsym, sym, rfl, hcarry⟩ | ⟨b, rfl, hb, hcarry⟩) h hr
  · exact carry_clauses (hcarry.trans decide_eq_true_iff.symm) h hr (carriesBelow_rcEncode h hr)
      (rcEncode_carryFaultOnlyIf s base nsym sym)
  · exact carry_clauses (hcarry.trans decide_eq_true_iff.symm) h hr (carriesBelow_rcEncWrapup hb h hr)
      (rcEncWrapup_carryFaultOnlyIf hb)

end Sys2Proof.Machine

/-! ## SR commands, arm by arm (R131, R141, R146, R147)

What SR_COPY, SR_PREDICT and SR_COMMIT do on an existing context, and the checks of SR_PREDICT in the words of
the statements. -/

namespace Sys2Proof.Machine

open Sys2Proof.Claims

/-! ### SR_COPY and SR_CLEAR -/

/-- SR_COPY between existing contexts stores the source in the destination (R146). -/
theorem exec_srCopy_runs {dst : BitVec 4} {src : Word16} {s : State} (hh : s.halt = false)
    (hdst : dst.toNat < s.params.nCtx) (hsrc : src.toNat < s.params.nCtx) :
    exec (.srCopy dst src) s = .next (answered (s.withCtx dst.toNat (s.ctx src.toNat)) (okWord 0 0)) := by
  simp only [exec, execSrCopy, onContext_runs _ _ _ _ hh hdst, Nat.not_le.mpr hsrc, if_false, respondOk_eq]
  rfl

theorem Instr.srCopy_wellFormed_eq_false {p : Params} {dst : BitVec 4} {src : Word16}
    (h : p.nCtx ≤ dst.toNat ∨ p.nCtx ≤ src.toNat) : (Instr.srCopy dst src).wellFormed p = false := by
  simpa [Instr.wellFormed, or_iff_not_imp_left] using h

/-- Settles O46: a missing context is an ill-formed command, and a copy of existing ones is one store. -/
theorem srCopyCopiesTheContext : Obligations.SrCopyCopiesTheContext := by
  refine fun s dst src hh hlen => ⟨fun hmissing => ?_, fun c hdst hc => ?_⟩
  · exact exec_of_not_wellFormed hh (Instr.srCopy_wellFormed_eq_false hmissing)
  · obtain ⟨hsrc, -⟩ := List.getElem?_eq_some_iff.mp hc
    rw [exec_srCopy_runs hh hdst (hlen ▸ hsrc), State.ctx_of_getElem? hc]
    rfl

/-- Settles O47: what SR_CLEAR stores is the zero context, which is what reset puts in every place. -/
theorem srClearZeroesTheContext : Obligations.SrClearZeroesTheContext := by
  refine fun s ctx hh _ => ⟨fun hmissing => ?_, fun hk => ?_⟩
  · exact exec_of_not_wellFormed hh (decide_eq_false hmissing.not_gt)
  · refine ⟨SrContext.zero s.params, exec_srClear_runs hh hk, regs_zero _, rfl, rfl, rfl, fun _ _ => ?_⟩
    simpa [State.afterReset, List.getElem?_replicate] using hk

/-! ### The checks of SR_PREDICT -/

theorem orderLegal_eq_false_iff (lo hi : Nat) (ord : BitVec 8) :
    orderLegal lo hi ord = false ↔ badOrder lo hi ord.toNat := by
  simp only [orderLegal, badOrder, Bool.and_eq_false_iff, beq_eq_false_iff_ne, decide_eq_false_iff_not]
  omega

theorem orderLegal_eq_true_iff (lo hi : Nat) (ord : BitVec 8) :
    orderLegal lo hi ord = true ↔ ¬ badOrder lo hi ord.toNat := by
  rw [← orderLegal_eq_false_iff, Bool.not_eq_false]

/-- The lag check of R131 fails exactly on a bad lag of a voiced context. -/
theorem lagCheck_iff_badLag (p : Params) (c : SrContext) :
    (c.voiced && !lagLegal p.ringDepth c.lag) = true ↔ badLag p c := by
  simp only [lagLegal, badLag, Bool.and_eq_true, Bool.not_eq_true', Bool.and_eq_false_iff,
    decide_eq_false_iff_not, not_le]

section

variable {p : Params} {c : SrContext}

theorem SrContext.predictCheck_of_badOrder (hp : c.pvalid = false)
    (h : badOrder p.lpcOrdMin p.lpcOrdMax c.lpcOrd.toNat ∨ badOrder p.shpOrdMin p.shpOrdMax c.shpOrd.toNat) :
    c.predictCheck p = some .order := by
  simp only [← orderLegal_eq_false_iff] at h
  obtain h | h := h
  · simp [predictCheck, hp, h]
  · simp [predictCheck, hp, h]

theorem SrContext.predictCheck_of_badLag (hp : c.pvalid = false)
    (hlpc : ¬ badOrder p.lpcOrdMin p.lpcOrdMax c.lpcOrd.toNat)
    (hshp : ¬ badOrder p.shpOrdMin p.shpOrdMax c.shpOrd.toNat) (hlag : badLag p c) :
    c.predictCheck p = some .lag := by
  rw [← orderLegal_eq_true_iff] at hlpc hshp
  rw [← lagCheck_iff_badLag] at hlag
  simp only [predictCheck, hp, hlpc, hshp, hlag, Bool.not_true, Bool.false_eq_true, if_false, if_true]

theorem SrContext.predictCheck_of_accepted (hp : c.pvalid = false) (h : accepted p c) :
    c.predictCheck p = none := by
  obtain ⟨hlpc, hshp, hlag⟩ := h
  rw [← orderLegal_eq_true_iff] at hlpc hshp
  rw [← lagCheck_iff_badLag] at hlag
  simp only [predictCheck, hp, hlpc, hshp, hlag, Bool.not_true, Bool.false_eq_true, if_false]

end

/-! ### SR_PREDICT and SR_COMMIT -/

section

variable {s : State} {ctx : BitVec 4}

/-- SR_PREDICT on a context it accepts takes the effect of R140. -/
theorem exec_srPredict_runs (x : Word32) (hh : s.halt = false) (hk : ctx.toNat < s.params.nCtx)
    (hf : (s.ctx ctx.toNat).predictCheck s.params = none) :
    exec (.srPredict ctx x) s =
      .next (answered (s.withCtx ctx.toNat ((s.ctx ctx.toNat).predicted s.params x))
        (okWord 0 ((s.ctx ctx.toNat).residual s.params x).toNat)) := by
  rw [exec_srPredict, State.predictFault_of_runs hh hk, hf, Option.elim_none]

/-- SR_COMMIT on a predicted context takes the effect of R142 to R145, whatever the pulse. -/
theorem exec_srCommit_runs (q : Word32) (hh : s.halt = false) (hk : ctx.toNat < s.params.nCtx)
    (hp : (s.ctx ctx.toNat).pvalid = true) :
    exec (.srCommit ctx q) s =
      .next (answered (s.withCtx ctx.toNat ((s.ctx ctx.toNat).committed s.params q))
        (okWord 0 ((s.ctx ctx.toNat).reconstructed q).toNat)) := by
  simp only [exec, execSrCommit, onContext_runs _ _ _ _ hh hk, hp, if_true, respondOk_eq]

/-- A store answered with `OK` leaves the block running. -/
theorem exists_ok_of_stored {i : Instr} {k : Nat} {x : SrContext} {r0 : Word32} (hh : s.halt = false)
    (h : exec i s = .next (answered (s.withCtx k x) (okWord 0 r0.toNat))) :
    ∃ t r, exec i s = .next t ∧ t.halt = false ∧ t.resp = some r ∧ classOf r = 0 :=
  ⟨_, _, h, hh, rfl, classOf_okWord_zero r0⟩

end

/-- Settles O48: the checks of R131 are those of `SrContext.predictCheck`, in its order. -/
theorem predictChecksInOrder : Obligations.PredictChecksInOrder := by
  refine fun s ctx x hh hlen => ⟨fun hmissing => ?_, fun c hc => ?_⟩
  · exact exec_of_not_wellFormed hh (decide_eq_false hmissing.not_gt)
  · obtain ⟨hk, -⟩ := List.getElem?_eq_some_iff.mp hc
    have hk : ctx.toNat < s.params.nCtx := hlen ▸ hk
    obtain rfl := State.ctx_of_getElem? hc
    refine ⟨fun hp => ?_, fun hp hord => ?_, fun hp hlpc hshp hlag => ?_, fun hp hacc => ?_⟩
    · rw [exec_srPredict_of_check x hh hk (SrContext.predictCheck_of_pvalid hp)]
      rfl
    · rw [exec_srPredict_of_check x hh hk (SrContext.predictCheck_of_badOrder hp hord)]
      rfl
    · rw [exec_srPredict_of_check x hh hk (SrContext.predictCheck_of_badLag hp hlpc hshp hlag)]
      rfl
    · exact exists_ok_of_stored hh
        (exec_srPredict_runs x hh hk (SrContext.predictCheck_of_accepted hp hacc))

/-- Settles O52: past UF_CTX only `PVALID` is looked at. -/
theorem commitNeedsAPrediction : Obligations.CommitNeedsAPrediction := by
  refine fun s ctx q hh hlen => ⟨fun hmissing => ?_, fun c hc => ?_⟩
  · exact exec_of_not_wellFormed hh (decide_eq_false hmissing.not_gt)
  · obtain ⟨hk, -⟩ := List.getElem?_eq_some_iff.mp hc
    have hk : ctx.toNat < s.params.nCtx := hlen ▸ hk
    obtain rfl := State.ctx_of_getElem? hc
    refine ⟨fun hp => exec_srCommit_unpaired q hh hk hp, fun hp => ?_⟩
    exact exists_ok_of_stored hh (exec_srCommit_runs q hh hk hp)

end Sys2Proof.Machine

/-! ## The recursion on integers (R12, R13, R133 to R145)

The primitives of the model as `wrap` of integer formulas, then each term of the recursion in the words of the
statements. Every wrapping operation is `wrap` of its integer one, so a term is read off by pushing `wrap`
inwards; only a floor or a comparison needs the value of an intermediate result. -/

namespace Sys2Proof.Machine

open Sys2Proof.Claims

/-! ### Wrapping -/

@[simp] theorem wrap_toInt (a : Word32) : wrap a.toInt = a := BitVec.ofInt_toInt

theorem wrap_add (a b : Int) : wrap (a + b) = wrap a + wrap b := BitVec.ofInt_add a b

theorem wrap_mul (a b : Int) : wrap (a * b) = wrap a * wrap b := BitVec.ofInt_mul a b

theorem wrap_neg (a : Int) : wrap (-a) = -wrap a := BitVec.ofInt_neg

theorem wrap_sub (a b : Int) : wrap (a - b) = wrap a - wrap b := by
  rw [Int.sub_eq_add_neg, wrap_add, wrap_neg, BitVec.sub_eq_add_neg]

/-- A left shift is a product with a power of two. -/
theorem wrap_mul_two_pow (a : Int) (n : Nat) : wrap (a * 2 ^ n) = wrap a <<< n := by
  have hpow : wrap (2 ^ n) = BitVec.twoPow 32 n := by
    rw [wrap, show (2 : Int) ^ n = ((2 ^ n : Nat) : Int) by simp, BitVec.ofInt_natCast]
    exact BitVec.eq_of_toNat_eq (by simp)
  rw [wrap_mul, hpow, BitVec.mul_twoPow_eq_shiftLeft]

/-- The wrapping sum of wrapped terms is the wrapped sum. -/
theorem sum32_wrap (n : Nat) (f : Nat → Int) :
    sum32 n (fun j => wrap (f j)) = wrap (∑ j ∈ Finset.range n, f j) := by
  induction n with
  | zero => rfl
  | succ n ih => rw [sum32_succ, ih, Finset.sum_range_succ, wrap_add]

/-! ### Products and roundings -/

theorem smulwb_eq (a b : Word32) : smulwb a b = wrap (mulShift a.toInt (lowHalf b)) := by
  rw [lowHalf, BitVec.setWidth_eq_extractLsb' (by decide)]
  rfl

theorem smulwt_eq (a b : Word32) : smulwt a b = wrap (mulShift a.toInt (highHalf b)) := by
  rw [highHalf, BitVec.setWidth_ushiftRight_eq_extractLsb]
  rfl

/-- The low half of a sign-extended tap is the tap. -/
theorem lowHalf_signExtend (h : Word16) : lowHalf (h.signExtend 32) = h.toInt := by
  rw [lowHalf]
  congr 1
  ext i hi
  simp [BitVec.getElem_signExtend, hi, show i < 32 by omega]

/-- The arithmetic right shift floors. -/
theorem toInt_sshiftRight_eq_div (a : Word32) (n : Nat) : (a.sshiftRight n).toInt = a.toInt / 2 ^ n := by
  rw [BitVec.toInt_sshiftRight, Int.shiftRight_eq_div_pow]
  norm_num

theorem sshiftRight_eq (a : Word32) (n : Nat) : a.sshiftRight n = wrap (a.toInt / 2 ^ n) := by
  rw [← toInt_sshiftRight_eq_div, wrap_toInt]

/-- The rounding shift by 4 adds half a unit and floors: its inner sum never wraps. -/
theorem rshiftRound_four_eq (a : Word32) : rshiftRound a 4 = wrap ((a.toInt + 8) / 16) := by
  have hlt := a.toInt_lt
  have hle := a.le_toInt
  have hinner : (a.sshiftRight 3 + 1).toInt = a.toInt / 8 + 1 := by
    have hwrap : a.sshiftRight 3 + 1 = wrap (a.toInt / 8 + 1) := by rw [wrap_add, sshiftRight_eq]; rfl
    rw [hwrap]
    exact BitVec.toInt_ofInt_eq_self (by decide) (by omega) (by omega)
  rw [rshiftRound, sshiftRight_eq, hinner]
  congr 1
  omega

theorem clampSym_eq (bound : Nat) (v : Word32) :
    clampSym bound v = wrap (max (-(bound : Int)) (min (bound : Int) v.toInt)) := by
  unfold clampSym
  split_ifs with hlow hhigh
  · rw [max_eq_left (by omega)]; rfl
  · rw [min_eq_left (by omega), max_eq_right (by omega)]; rfl
  · rw [min_eq_right (by omega), max_eq_right (by omega), wrap_toInt]

/-! ### The seed (R133) -/

theorem seedAfter_eq (p : Params) (seed : Word32) : seedAfter p seed = nextSeed p seed := by
  rw [seedAfter, nextSeed, BitVec.ofNat_add, BitVec.ofNat_mul]
  simp

/-- The mask of an advanced seed is all ones exactly where its sign bit is set. -/
theorem ditherMask_nextSeed (p : Params) (seed : Word32) :
    ditherMask (nextSeed p seed) = if dithers p seed then 0xFFFFFFFF else 0 := by
  have hbit : (nextSeed p seed).getLsbD 31 = dithers p seed := by
    rw [dithers, seedAfter_eq]
    exact (BitVec.msb_eq_getLsbD_last _).symm.trans (BitVec.msb_eq_decide _)
  rw [ditherMask, hbit]

theorem negateIf_ditherMask (p : Params) (seed : Word32) (d : Int) :
    negateIf (ditherMask (nextSeed p seed)) (wrap d) = wrap (if dithers p seed then -d else d) := by
  rw [ditherMask_nextSeed]
  split
  · rw [negateIf_ones, wrap_neg]
  · rw [negateIf_zero]

/-! ### The five terms (R134 to R138) -/

theorem wrap_cell (ring : List Word32) (k : Nat) : wrap (cell ring k) = ringPeek ring k := wrap_toInt _

theorem smulwb_tapWord (ring : List Word32) (k : Nat) (taps : List Word16) (j : Nat) :
    smulwb (ringPeek ring k) (tapWord taps j) = wrap (mulShift (cell ring k) (tap taps j)) := by
  rw [smulwb_eq, tapWord, lowHalf_signExtend]
  rfl

section

variable {c : SrContext}

theorem lpcTerm_eq : lpcTerm c = c.termLpc := by
  simp only [lpcTerm, SrContext.termLpc, smulwb_tapWord, sum32_wrap]

theorem narTerm_eq : narTerm c = c.termNar := by
  rw [narTerm, SrContext.termNar, wrap_add, smulwb_eq, lowHalf_signExtend, sshiftRight_eq]
  simp only [smulwb_tapWord, sum32_wrap, pow_one]

theorem nlfTerm_eq : nlfTerm c = c.termNlf := by
  have hshift (a : Int) : wrap (4 * a) = wrap a <<< 2 := by rw [mul_comm]; exact wrap_mul_two_pow a 2
  rw [nlfTerm, SrContext.termNlf, smulwb_eq, smulwt_eq, wrap_add, hshift]
  rfl

theorem ltpTerm_eq (hlag : c.voiced = true → 2 ≤ c.lag.toNat) : ltpTerm c = c.termLtp := by
  unfold ltpTerm SrContext.termLtp
  split
  · next hv =>
    obtain ⟨m, hm⟩ := Nat.exists_eq_add_of_le' (hlag hv)
    simp [ltpOrder, smulwb_tapWord, wrap_add, hm]
  · rfl

theorem nltpTerm_eq : nltpTerm c = c.termNltp := by
  have hshift (a : Int) : wrap (64 * a) = wrap a <<< 6 := by rw [mul_comm]; exact wrap_mul_two_pow a 6
  unfold nltpTerm SrContext.termNltp
  split
  · rw [hshift, wrap_add, smulwb_eq, smulwt_eq, wrap_add, wrap_cell, wrap_cell]
    rfl
  · rfl

/-! ### The residual (R139) -/

theorem wrap_predictionOf (hlag : c.voiced = true → 2 ≤ c.lag.toNat) : wrap (predictionOf c) = c.prediction := by
  rw [predictionOf, wrap_sub, wrap_sub, wrap_add, wrap_toInt, wrap_toInt, wrap_toInt, wrap_sub, wrap_toInt,
    wrap_toInt, lpcTerm_eq, narTerm_eq, nlfTerm_eq, ltpTerm_eq hlag, nltpTerm_eq, SrContext.prediction,
    sshiftRight_eq]
  rfl

theorem residualOf_eq (p : Params) (x : Word32) (hlag : c.voiced = true → 2 ≤ c.lag.toNat) :
    residualOf p c x = c.residual p x := by
  have hd : x - c.prediction = wrap (x.toInt - predictionOf c) := by
    rw [wrap_sub, wrap_toInt, wrap_predictionOf hlag]
  rw [SrContext.residual, hd, negateIf_ditherMask, clampSym_eq, residualOf, wrap_sub, wrap_toInt]

/-- The writes of R140 in the words of the statements. -/
theorem SrContext.predicted_eq (p : Params) (x : Word32) (hlag : c.voiced = true → 2 ≤ c.lag.toNat) :
    c.predicted p x = { c with
      seed := seedAfter p c.seed
      lLpc := lpcTerm c
      lLtp := ltpTerm c
      lNar := narTerm c
      lNlf := nlfTerm c
      lNltp := nltpTerm c
      lDither := if dithers p c.seed then 0xFFFFFFFF else 0
      lR := residualOf p c x
      pvalid := true } := by
  rw [seedAfter_eq, lpcTerm_eq, ltpTerm_eq hlag, narTerm_eq, nlfTerm_eq, nltpTerm_eq, residualOf_eq p x hlag,
    ← ditherMask_nextSeed]
  rfl

/-- An accepted lag reaches two cells back. -/
theorem two_le_lag_of_accepted {p : Params} (h : accepted p c) (hv : c.voiced = true) : 2 ≤ c.lag.toNat := by
  obtain ⟨-, -, hlag⟩ := h
  simp only [badLag, hv, true_and] at hlag
  omega

/-! ### The reconstruction (R142 to R145) -/

section

variable {q : Word32}

theorem excOf_eq (hd : c.lDither = 0 ∨ c.lDither = 0xFFFFFFFF) : excOf c q = c.lpcExcitation q := by
  have he : wrap (q.toInt * 2 ^ 10 + c.offset.toInt) = q <<< 10 + c.offset := by
    rw [wrap_add, wrap_mul_two_pow, wrap_toInt, wrap_toInt]
  rw [SrContext.lpcExcitation, SrContext.excitation, rshiftRound_four_eq, excOf, wrap_add, ← he]
  obtain hd | hd := hd
  · rw [hd, if_pos rfl, negateIf_zero]
  · rw [hd, if_neg (by decide), negateIf_ones, wrap_neg]

theorem sampleOf_eq (hd : c.lDither = 0 ∨ c.lDither = 0xFFFFFFFF) : sampleOf c q = c.reconstructed q := by
  rw [sampleOf, wrap_add, wrap_toInt, wrap_toInt, excOf_eq hd]
  rfl

theorem shapedOf_eq (hd : c.lDither = 0 ∨ c.lDither = 0xFFFFFFFF) :
    shapedOf c q = c.reconstructed q - c.lNar := by
  rw [shapedOf, wrap_sub, wrap_toInt, wrap_toInt, sampleOf_eq hd]

/-- A push on a full ring drops its last cell. -/
theorem ringPush_eq_dropLast {depth : Nat} {ring : List Word32} (v : Word32) (h : ring.length = depth) :
    ringPush depth ring v = (v :: ring).dropLast := by
  rw [ringPush, List.dropLast_eq_take, List.length_cons, h, Nat.add_sub_cancel]

/-- The writes of R143 to R145 in the words of the statements. -/
theorem SrContext.committed_eq {p : Params} (hd : c.lDither = 0 ∨ c.lDither = 0xFFFFFFFF)
    (hslpc : c.slpc.length = p.slpcDepth) (hsltp : c.sltp.length = p.ringDepth)
    (hsshp : c.sshp.length = p.ringDepth) :
    c.committed p q = { c with
      slpc := (wrap ((sampleOf c q).toInt * 16) :: c.slpc).dropLast
      lfar := wrap ((shapedOf c q).toInt * 4)
      sshp := (wrap ((shapedOf c q).toInt - c.lNlf.toInt) :: c.sshp).dropLast
      sltp := (wrap ((excOf c q).toInt * 64) :: c.sltp).dropLast
      curSltp := c.curSltp + 1
      curSshp := c.curSshp + 1
      seed := if p.seedFeedback then c.seed + q else c.seed
      pvalid := false } := by
  have hshift (v : Word32) (n : Nat) : wrap (v.toInt * 2 ^ n) = v <<< n := by rw [wrap_mul_two_pow, wrap_toInt]
  have h16 : wrap ((sampleOf c q).toInt * 16) = c.reconstructed q <<< 4 := sampleOf_eq hd ▸ hshift _ 4
  have h4 : wrap ((shapedOf c q).toInt * 4) = (c.reconstructed q - c.lNar) <<< 2 := shapedOf_eq hd ▸ hshift _ 2
  have h64 : wrap ((excOf c q).toInt * 64) = c.lpcExcitation q <<< 6 := excOf_eq hd ▸ hshift _ 6
  rw [h16, h4, h64, wrap_sub, wrap_toInt, wrap_toInt, shapedOf_eq hd, ← ringPush_eq_dropLast _ hslpc,
    ← ringPush_eq_dropLast _ hsltp, ← ringPush_eq_dropLast _ hsshp]
  rfl

end

end

theorem SrContext.rings_of_shaped {p : Params} {c : SrContext} (h : c.shaped p = true) :
    c.slpc.length = p.slpcDepth ∧ c.sltp.length = p.ringDepth ∧ c.sshp.length = p.ringDepth := by
  simp only [shaped, Bool.and_eq_true, beq_iff_eq] at h
  obtain ⟨⟨⟨-, hslpc⟩, hsltp⟩, hsshp⟩ := h
  exact ⟨hslpc, hsltp, hsshp⟩

/-- Settles O49: SR_PREDICT past its checks stores `SrContext.predicted`, whose fields are the integer terms. -/
theorem predictComputesTheResidual : Obligations.PredictComputesTheResidual := by
  intro s ctx x c hh hk hc hp hacc
  have hlag := two_le_lag_of_accepted hacc
  obtain rfl := State.ctx_of_getElem? hc
  rw [exec_srPredict_runs x hh hk (SrContext.predictCheck_of_accepted hp hacc),
    SrContext.predicted_eq _ x hlag, residualOf_eq _ x hlag]
  rfl

/-- Settles O51: SR_COMMIT stores `SrContext.committed`, whose fields are the integer formulas. -/
theorem commitPushesTheSample : Obligations.CommitPushesTheSample := by
  intro s ctx q c hh hk hc hp hd hshaped
  obtain ⟨hslpc, hsltp, hsshp⟩ := SrContext.rings_of_shaped hshaped
  obtain rfl := State.ctx_of_getElem? hc
  rw [exec_srCommit_runs q hh hk hp, SrContext.committed_eq hd hslpc hsltp hsshp, sampleOf_eq hd]
  rfl

end Sys2Proof.Machine

/-! ## System and buffer commands (R170, R172 to R174)

The access commands that name no context: NOP, BUF_RD, BUF_WR and CDF_RD. -/

namespace Sys2Proof.Machine

open Sys2Proof.Claims

/-! ### NOP -/

/-- A word whose opcode is that of NOP and whose other bits are zero is the all-zeros word. -/
theorem eq_zero_of_opcOf_zero {w : Word64} (hopc : opcOf w = 0) (hmask : w &&& 0x00FFFFFFFFFFFFFF = 0) :
    w = 0 := by
  have hlt : w.toNat < 2 ^ 56 := by
    unfold opcOf at hopc
    omega
  have hand : w.toNat &&& (2 ^ 56 - 1) = 0 := congrArg BitVec.toNat hmask
  rw [Nat.and_two_pow_sub_one_of_lt_two_pow hlt] at hand
  exact BitVec.eq_of_toNat_eq hand

/-- Settles O22: the row of NOP uses no bit but those of the opcode, so any other set bit is UF_FIELD. -/
theorem nopDoesNothing : Obligations.NopDoesNothing := by
  refine fun s => ⟨respondOk_eq 0 s, fun w _ => ⟨fun h => (encode_of_decode h).symm, ?_⟩, fun w hopc hw hh => ?_⟩
  · rintro rfl
    decide
  · have hset : w &&& 0x00FFFFFFFFFFFFFF ≠ 0 := fun hzero => hw (eq_zero_of_opcOf_zero hopc hzero)
    have hrow : (0x00, 0x00FFFFFFFFFFFFFF) ∈ unusedBits := by decide
    exact presentWord_of_error_running (e := .field) (decode_of_unused hrow hopc hset) hh

section

variable {s : State} (hh : s.halt = false)
include hh

/-! ### BUF_RD and BUF_WR -/

/-- BUF_RD (R172). -/
theorem exec_bufRd (addr : Word16) :
    exec (.bufRd addr) s =
      if s.params.bufBytes ≤ addr.toNat then .next (faulted s (encode (.bufRd addr)) 4)
      else .next (answered s (okWord 0 (s.bufByte addr.toNat).toNat)) := by
  have hbyte : ((s.bufByte addr.toNat).setWidth 32).toNat = (s.bufByte addr.toNat).toNat :=
    BitVec.toNat_setWidth_of_le (by decide)
  simp only [exec, execBufRd, hh, Bool.false_eq_true, if_false, raiseUsageFault_eq_faulted hh, respondOk_eq, hbyte]
  rfl

/-- BUF_WR (R173): the mode check precedes the bounds check. -/
theorem exec_bufWr (addr : Word16) (byte : Byte) :
    exec (.bufWr addr byte) s =
      if s.mode = .enc then .next (faulted s (encode (.bufWr addr byte)) 5)
      else if s.params.bufBytes ≤ addr.toNat then .next (faulted s (encode (.bufWr addr byte)) 4)
      else .next (answered (s.withBuf (Memory.write addr.toNat byte s.buf)) (okWord 0 0)) := by
  simp only [exec, execBufWr, hh, Bool.false_eq_true, if_false, raiseUsageFault_eq_faulted hh, respondOk_eq]
  rfl

/-! ### CDF_RD -/

/-- CDF_RD (R174). -/
theorem exec_cdfRd (index : Word16) :
    exec (.cdfRd index) s =
      if s.params.cdfEntries ≤ index.toNat then .next (faulted s (encode (.cdfRd index)) 4)
      else .next (answered s (okWord 0 (s.params.cdf index.toNat).toNat)) := by
  have hentry : ((s.params.cdf index.toNat).setWidth 32).toNat = (s.params.cdf index.toNat).toNat :=
    BitVec.toNat_setWidth_of_le (by decide)
  simp only [exec, execCdfRd, hh, Bool.false_eq_true, if_false, raiseUsageFault_eq_faulted hh, respondOk_eq, hentry]
  rfl

end

/-- Settles O24. -/
theorem bufReadAnswersTheByte : Obligations.BufReadAnswersTheByte := by
  refine fun s addr hh => ⟨fun hin => ?_, fun hout => ?_⟩
  · rw [exec_bufRd hh, if_neg (by omega)]
  · rw [exec_bufRd hh, if_pos hout]

/-- Settles O25: the three clauses are the branches of the command, and the last one writes one cell of `BUF`. -/
theorem bufWriteStoresTheByte : Obligations.BufWriteStoresTheByte := by
  refine fun s addr byte hh => ⟨fun henc => ?_, fun henc hout => ?_, fun henc hin => ?_⟩
  · rw [exec_bufWr hh, if_pos henc]
  · rw [exec_bufWr hh, if_neg henc, if_pos hout]
  · rw [exec_bufWr hh, if_neg henc, if_neg (by omega)]
    exact ⟨_, rfl, rfl, Memory.read_write_same _ _ _ _, fun a ha => Memory.read_write_other _ _ _ _ _ ha⟩

/-- Settles O26: an index has an entry of the image exactly below `CDF_ENTRIES`. -/
theorem cdfReadAnswersTheEntry : Obligations.CdfReadAnswersTheEntry := by
  refine fun s index hh => ⟨fun v hv => ?_, fun hnone => ?_⟩
  · obtain ⟨hin, -⟩ := List.getElem?_eq_some_iff.mp hv
    have hentry : s.params.cdf index.toNat = v := by
      simp only [Params.cdf, List.getD_eq_getElem?_getD, hv, Option.getD_some]
    have hin : ¬ s.params.cdfEntries ≤ index.toNat := hin.not_ge
    rw [exec_cdfRd hh, if_neg hin, hentry]
  · have hout : s.params.cdfEntries ≤ index.toNat := List.getElem?_eq_none_iff.mp hnone
    rw [exec_cdfRd hh, if_pos hout]

end Sys2Proof.Machine

/-! ## The SR register file (R46, R47)

`regs_eq_map` reads the table of the statements as a map over the registers of the model, so that reading and
writing a register are said once for a register and not for an index. -/

namespace Sys2Proof.Machine

open Sys2Proof.Claims

/-! ### Registers and their indices -/

/-- The index column of R46. -/
def SrReg.index : SrReg → Nat
  | .a k => k
  | .ar k => 0x20 + k
  | .b k => 0x40 + k
  | .harm => 0x48
  | .tilt => 0x49
  | .lf => 0x4A
  | .offset => 0x4B
  | .lpcOrd => 0x50
  | .shpOrd => 0x51
  | .voiced => 0x52
  | .lag => 0x53
  | .seed => 0x58
  | .lfar => 0x59
  | .pvalid => 0x60
  | .lLpc => 0x61
  | .lLtp => 0x62
  | .lNar => 0x63
  | .lNlf => 0x64
  | .lNltp => 0x65
  | .lDither => 0x66
  | .lR => 0x67
  | .curSltp => 0x70
  | .curSshp => 0x71

/-- The block has the register: a tap index is below the implemented maximum (R46). -/
def SrReg.Implemented (p : Params) : SrReg → Prop
  | .a k => k < p.lpcOrdMax
  | .ar k => k < p.shpOrdMax
  | .b k => k < ltpOrder
  | _ => True

/-- The registers that are no taps, in the order of R46. -/
def scalarRegs : List SrReg :=
  [.harm, .tilt, .lf, .offset, .lpcOrd, .shpOrd, .voiced, .lag, .seed, .lfar, .pvalid, .lLpc, .lLtp, .lNar,
   .lNlf, .lNltp, .lDither, .lR, .curSltp, .curSshp]

/-- The registers that the parameters give, in the order of R46. -/
def allRegs (p : Params) : List SrReg :=
  (List.range p.lpcOrdMax).map .a ++ (List.range p.shpOrdMax).map .ar ++ (List.range ltpOrder).map .b ++ scalarRegs

theorem mem_allRegs_iff (p : Params) (r : SrReg) : r ∈ allRegs p ↔ r.Implemented p := by
  cases r <;> simp [allRegs, scalarRegs, SrReg.Implemented]

/-- Valid parameters leave the taps of one file below the indices of the next (R8). -/
theorem Params.valid_ordMax {p : Params} (h : p.valid = true) : p.lpcOrdMax ≤ 32 ∧ p.shpOrdMax ≤ 32 := by
  simp only [Params.valid, Bool.and_eq_true, decide_eq_true_eq] at h
  omega

theorem srRegOf_index {p : Params} (hp : p.valid = true) {r : SrReg} (h : r.Implemented p) :
    srRegOf p r.index = some r := by
  obtain ⟨hlpc, hshp⟩ := Params.valid_ordMax hp
  cases r with
  | a k =>
    have hk : k < p.lpcOrdMax := h
    rw [SrReg.index]
    unfold srRegOf
    rw [if_pos (by omega), if_pos hk]
  | ar k =>
    have hk : k < p.shpOrdMax := h
    rw [SrReg.index]
    unfold srRegOf
    rw [if_neg (by omega), if_pos (by omega), Nat.add_sub_cancel_left, if_pos hk]
  | b k =>
    have hk : k < ltpOrder := h
    rw [SrReg.index]
    unfold srRegOf
    rw [if_neg (by omega), if_neg (by omega), if_pos (by omega), Nat.add_sub_cancel_left]
  | _ => rfl

theorem of_srRegOf_eq_some {p : Params} {n : Nat} {r : SrReg} (h : srRegOf p n = some r) :
    r.Implemented p ∧ r.index = n := by
  unfold srRegOf at h
  split_ifs at h with ha hk har hk hb
  · obtain rfl := Option.some.inj h
    exact ⟨hk, rfl⟩
  · obtain rfl := Option.some.inj h
    exact ⟨hk, by simp only [SrReg.index]; omega⟩
  · obtain rfl := Option.some.inj h
    exact ⟨by simp only [SrReg.Implemented]; omega, by simp only [SrReg.index]; omega⟩
  · split at h <;> cases h <;> exact ⟨trivial, rfl⟩

/-- The index column read backwards, for the registers that exist. -/
theorem srRegOf_eq_some_iff {p : Params} (hp : p.valid = true) (n : Nat) (r : SrReg) :
    srRegOf p n = some r ↔ r.Implemented p ∧ r.index = n :=
  ⟨of_srRegOf_eq_some, fun ⟨hr, hn⟩ => hn ▸ srRegOf_index hp hr⟩

/-- No two registers that exist share an index. -/
theorem SrReg.index_eq_index_iff {p : Params} (hp : p.valid = true) {r r' : SrReg} (h : r.Implemented p)
    (h' : r'.Implemented p) : r.index = r'.index ↔ r = r' := by
  refine ⟨fun heq => Option.some.inj ?_, congrArg SrReg.index⟩
  rw [← srRegOf_index hp h, heq, srRegOf_index hp h']

/-! ### The table of the statements -/

/-- The number a register holds: the value column of the statement's table. -/
def SrContext.regNumber (c : SrContext) : SrReg → Int
  | .a k => tap c.a k
  | .ar k => tap c.ar k
  | .b k => tap c.b k
  | .harm => c.harm.toNat
  | .tilt => c.tilt.toInt
  | .lf => c.lf.toNat
  | .offset => c.offset.toNat
  | .lpcOrd => c.lpcOrd.toNat
  | .shpOrd => c.shpOrd.toNat
  | .voiced => c.voiced.toNat
  | .lag => c.lag.toNat
  | .seed => c.seed.toNat
  | .lfar => c.lfar.toNat
  | .pvalid => c.pvalid.toNat
  | .lLpc => c.lLpc.toNat
  | .lLtp => c.lLtp.toNat
  | .lNar => c.lNar.toNat
  | .lNlf => c.lNlf.toNat
  | .lNltp => c.lNltp.toNat
  | .lDither => c.lDither.toNat
  | .lR => c.lR.toNat
  | .curSltp => c.curSltp.toNat
  | .curSshp => c.curSshp.toNat

theorem regs_eq_map (p : Params) (c : SrContext) :
    regs p c = (allRegs p).map fun r => (r.index, c.regNumber r) := by
  simp only [allRegs, List.map_append, List.map_map]
  rfl

theorem mem_regs_iff (p : Params) (c : SrContext) (e : Nat × Int) :
    e ∈ regs p c ↔ ∃ r : SrReg, r.Implemented p ∧ r.index = e.1 ∧ c.regNumber r = e.2 := by
  simp only [regs_eq_map, List.mem_map, mem_allRegs_iff, Prod.ext_iff]

theorem isReg_iff (p : Params) (n : Nat) : isReg p n ↔ ∃ r : SrReg, r.Implemented p ∧ r.index = n := by
  simp only [isReg, regs_eq_map, List.map_map, List.mem_map, mem_allRegs_iff, Function.comp_apply]

theorem srRegOf_eq_none_of_not_isReg {p : Params} {n : Nat} (h : ¬ isReg p n) : srRegOf p n = none :=
  Option.eq_none_iff_forall_ne_some.mpr fun r hr => h ((isReg_iff p n).mpr ⟨r, of_srRegOf_eq_some hr⟩)

/-! ### Reading a register (R47) -/

/-- A pattern read as a number without sign is zero-extended. -/
theorem wrap_toNat {n : Nat} (x : BitVec n) : wrap x.toNat = x.setWidth 32 := by
  rw [wrap, BitVec.ofInt_natCast, BitVec.ofNat_toNat]

theorem wrap_flag (b : Bool) : wrap b.toNat = (flagBit b).setWidth 32 := by
  cases b <;> rfl

/-- A register reads as its number, on 32 bits. -/
theorem SrContext.readReg_eq_wrap (c : SrContext) (r : SrReg) : c.readReg r = wrap (c.regNumber r) := by
  cases r with
  | a | ar | b | tilt => rfl
  | voiced | pvalid => exact (wrap_flag _).symm
  | lpcOrd | shpOrd | lag => exact (wrap_toNat _).symm
  | harm | lf | offset | seed | lfar | lLpc | lLtp | lNar | lNlf | lNltp | lDither | lR | curSltp | curSshp =>
    exact ((wrap_toNat _).trans (BitVec.setWidth_eq _)).symm

/-! ### Writing a register (R47, R55) -/

theorem SrContext.writeReg_eq_none_iff {p : Params} (hp : p.valid = true) (c : SrContext) (v : Word32) {r : SrReg}
    (hr : r.Implemented p) : c.writeReg v r = none ↔ r.index ∈ readOnly := by
  obtain ⟨hlpc, hshp⟩ := Params.valid_ordMax hp
  cases r with
  | a k | ar k | b k =>
    simp only [SrReg.Implemented, ltpOrder] at hr
    simp only [writeReg, SrReg.index, readOnly, reduceCtorEq, false_iff, List.mem_cons, List.not_mem_nil, or_false]
    omega
  | _ => simp [writeReg, SrReg.index, readOnly]

/-- Every read-only index is that of a register, whatever the parameters. -/
theorem exists_reg_of_mem_readOnly (p : Params) {n : Nat} (h : n ∈ readOnly) :
    ∃ r : SrReg, r.Implemented p ∧ r.index = n := by
  have hscalar : ∀ n ∈ readOnly, ∃ r ∈ scalarRegs, r.index = n := by decide
  obtain ⟨r, hr, hn⟩ := hscalar n h
  exact ⟨r, (mem_allRegs_iff p r).mp (List.mem_append_right _ hr), hn⟩

theorem tap_set_same {taps : List Word16} {k : Nat} (v : Word16) (h : k < taps.length) :
    tap (taps.set k v) k = v.toInt := by
  simp [tap, h]

theorem tap_set_other (taps : List Word16) {k j : Nat} (v : Word16) (h : k ≠ j) :
    tap (taps.set k v) j = tap taps j := by
  simp [tap, List.getElem?_set_ne h]

theorem SrContext.taps_of_shaped {p : Params} {c : SrContext} (h : c.shaped p = true) :
    c.a.length = p.lpcOrdMax ∧ c.ar.length = p.shpOrdMax ∧ c.b.length = ltpOrder := by
  simp only [shaped, Bool.and_eq_true, beq_iff_eq] at h
  obtain ⟨⟨⟨⟨⟨ha, har⟩, hb⟩, -⟩, -⟩, -⟩ := h
  exact ⟨ha, har, hb⟩

section

variable {p : Params} {c x : SrContext} {v : Word32} {r : SrReg}

/-- A tap register stores the low 16 bits, signed. -/
theorem stored_of_tap {n : Nat} (h : n < 0x48) : stored n v = (v.extractLsb' 0 16).toInt := by
  rw [stored, if_pos (Or.inl h), BitVec.setWidth_eq_extractLsb' (by decide)]

/-- The written register holds the low bits of the value. -/
theorem SrContext.regNumber_writeReg_same (hp : p.valid = true) (hc : c.shaped p = true) (hr : r.Implemented p)
    (h : c.writeReg v r = some x) : x.regNumber r = stored r.index v := by
  obtain ⟨hlpc, hshp⟩ := Params.valid_ordMax hp
  obtain ⟨ha, har, hb⟩ := SrContext.taps_of_shaped hc
  cases r with
  | a k | ar k | b k =>
    simp only [SrReg.Implemented, ltpOrder] at hr hb
    obtain rfl := Option.some.inj h
    rw [stored_of_tap (by simp only [SrReg.index]; omega)]
    exact tap_set_same _ (by omega)
  | tilt =>
    obtain rfl := Option.some.inj h
    simp [regNumber, SrReg.index, stored, BitVec.setWidth_eq_extractLsb']
  | lpcOrd | shpOrd | lag =>
    obtain rfl := Option.some.inj h
    simp [regNumber, SrReg.index, stored]
  | voiced =>
    obtain rfl := Option.some.inj h
    have hbit : (v.getLsbD 0).toNat = v.toNat % 2 := by
      rw [BitVec.getLsbD, Nat.toNat_testBit, Nat.pow_zero, Nat.div_one]
    exact congrArg Nat.cast hbit
  | harm | lf | offset | seed | lfar =>
    obtain rfl := Option.some.inj h
    rfl
  | pvalid | lLpc | lLtp | lNar | lNlf | lNltp | lDither | lR | curSltp | curSshp => cases h

/-- Every other register holds what it held. -/
theorem SrContext.regNumber_writeReg_other {r' : SrReg} (h : c.writeReg v r = some x) (hne : r ≠ r') :
    x.regNumber r' = c.regNumber r' := by
  cases r with
  | pvalid | lLpc | lLtp | lNar | lNlf | lNltp | lDither | lR | curSltp | curSshp => cases h
  | a k | ar k | b k =>
    obtain rfl := Option.some.inj h
    cases r'
    any_goals rfl
    next j => exact tap_set_other _ _ fun hk => hne (congrArg _ hk)
  | harm | tilt | lf | offset | lpcOrd | shpOrd | voiced | lag | seed | lfar =>
    obtain rfl := Option.some.inj h
    cases r'
    any_goals rfl
    exact absurd rfl hne

theorem SrContext.writeReg_rings (h : c.writeReg v r = some x) :
    x.slpc = c.slpc ∧ x.sltp = c.sltp ∧ x.sshp = c.sshp := by
  cases r <;> cases h <;> exact ⟨rfl, rfl, rfl⟩

theorem SrContext.writeReg_shaped (h : c.writeReg v r = some x) : x.shaped p = c.shaped p := by
  cases r with
  | a | ar | b =>
    obtain rfl := Option.some.inj h
    simp only [shaped, List.length_set]
  | _ => cases h <;> rfl

/-- Clearing `PVALID` makes its register read 0 and leaves the others. -/
theorem SrContext.regNumber_withoutPvalid (c : SrContext) (r : SrReg) :
    c.withoutPvalid.regNumber r = if r = .pvalid then 0 else c.regNumber r := by
  cases r <;> rfl

/-- The registers after SR_WR: the written one holds the low bits, `PVALID` is 0, the others are as they were. -/
theorem SrContext.regNumber_written {r' : SrReg} (hp : p.valid = true) (hc : c.shaped p = true)
    (hr : r.Implemented p) (h : c.writeReg v r = some x) :
    x.withoutPvalid.regNumber r' =
      if r' = r then stored r'.index v else if r' = .pvalid then 0 else c.regNumber r' := by
  rw [SrContext.regNumber_withoutPvalid]
  by_cases hsame : r' = r
  · subst hsame
    have hrw : r' ≠ .pvalid := by
      rintro rfl
      cases h
    rw [if_neg hrw, if_pos rfl, SrContext.regNumber_writeReg_same hp hc hr h]
  · rw [if_neg hsame, SrContext.regNumber_writeReg_other h (Ne.symm hsame)]

/-- The table after SR_WR, row by row. -/
theorem regs_written (hp : p.valid = true) (hc : c.shaped p = true) (hr : r.Implemented p)
    (h : c.writeReg v r = some x) :
    regs p x.withoutPvalid = (regs p c).map fun e =>
      if e.1 = r.index then (e.1, stored e.1 v) else if e.1 = 0x60 then (e.1, 0) else e := by
  rw [regs_eq_map, regs_eq_map, List.map_map]
  refine List.map_congr_left fun r' hmem => ?_
  have hr' : r'.Implemented p := (mem_allRegs_iff p r').mp hmem
  have hwritten : r'.index = r.index ↔ r' = r := SrReg.index_eq_index_iff hp hr' hr
  have hpvalid : r'.index = 0x60 ↔ r' = .pvalid := SrReg.index_eq_index_iff (r' := .pvalid) hp hr' trivial
  simp only [SrContext.regNumber_written hp hc hr h, Function.comp_apply, hwritten, hpvalid]
  split_ifs <;> rfl

end

/-! ### SR_RD and SR_WR (R175, R176) -/

section

variable {s : State} {ctx : BitVec 4} {reg : Word16}

theorem exec_srRd_of_none (hh : s.halt = false) (hk : ctx.toNat < s.params.nCtx)
    (hr : srRegOf s.params reg.toNat = none) :
    exec (.srRd ctx reg) s = .next (faulted s (encode (.srRd ctx reg)) 4) := by
  simp only [exec, execSrRd, onContext_runs _ _ _ _ hh hk, hr, raiseUsageFault_eq_faulted hh]
  rfl

theorem exec_srRd_of_some {r : SrReg} (hh : s.halt = false) (hk : ctx.toNat < s.params.nCtx)
    (hr : srRegOf s.params reg.toNat = some r) :
    exec (.srRd ctx reg) s = .next (answered s (okWord 0 ((s.ctx ctx.toNat).readReg r).toNat)) := by
  simp only [exec, execSrRd, onContext_runs _ _ _ _ hh hk, hr, respondOk_eq]

variable (v : Word32)

theorem exec_srWr_of_none (hh : s.halt = false) (hk : ctx.toNat < s.params.nCtx)
    (hr : srRegOf s.params reg.toNat = none) :
    exec (.srWr ctx reg v) s = .next (faulted s (encode (.srWr ctx reg v)) 4) := by
  simp only [exec, execSrWr, onContext_runs _ _ _ _ hh hk, hr, raiseUsageFault_eq_faulted hh]
  rfl

theorem exec_srWr_of_readOnly {r : SrReg} (hh : s.halt = false) (hk : ctx.toNat < s.params.nCtx)
    (hr : srRegOf s.params reg.toNat = some r) (hw : (s.ctx ctx.toNat).writeReg v r = none) :
    exec (.srWr ctx reg v) s = .next (faulted s (encode (.srWr ctx reg v)) 12) := by
  simp only [exec, execSrWr, onContext_runs _ _ _ _ hh hk, hr, hw, raiseUsageFault_eq_faulted hh]
  rfl

theorem exec_srWr_of_some {r : SrReg} {x : SrContext} (hh : s.halt = false) (hk : ctx.toNat < s.params.nCtx)
    (hr : srRegOf s.params reg.toNat = some r) (hw : (s.ctx ctx.toNat).writeReg v r = some x) :
    exec (.srWr ctx reg v) s = .next (answered (s.withCtx ctx.toNat x.withoutPvalid) (okWord 0 0)) := by
  simp only [exec, execSrWr, onContext_runs _ _ _ _ hh hk, hr, hw, respondOk_eq]
  rfl

end

/-- An existing context is within `N_CTX`, and is the one a command reads. -/
theorem State.exists_ctx {s : State} {k : Nat} {c : SrContext} (hlen : s.sr.length = s.params.nCtx)
    (hc : s.sr[k]? = some c) : k < s.params.nCtx ∧ s.ctx k = c := by
  obtain ⟨hk, -⟩ := List.getElem?_eq_some_iff.mp hc
  exact ⟨hlen ▸ hk, State.ctx_of_getElem? hc⟩

/-- Settles O42: a row of the table is a register of the model, which reads as the row's number on 32 bits. -/
theorem srReadAnswersTheRegister : Obligations.SrReadAnswersTheRegister := by
  refine fun s ctx reg hh hp hlen => ⟨fun hmissing => ?_, fun c hc => ?_⟩
  · exact exec_of_not_wellFormed hh (decide_eq_false hmissing.not_gt)
  · obtain ⟨hk, rfl⟩ := State.exists_ctx hlen hc
    refine ⟨fun e he hidx => ?_, fun hnot => exec_srRd_of_none hh hk (srRegOf_eq_none_of_not_isReg hnot)⟩
    obtain ⟨r, hr, hindex, hnum⟩ := (mem_regs_iff _ _ _).mp he
    have hreg : srRegOf s.params reg.toNat = some r :=
      (srRegOf_eq_some_iff hp _ _).mpr ⟨hr, hindex.trans hidx⟩
    rw [exec_srRd_of_some hh hk hreg, SrContext.readReg_eq_wrap, hnum]

/-- Settles O43: an index outside the table, a read-only row and a writable row are the three branches of SR_WR,
and `regs_written` gives the table after the last. -/
theorem srWriteStoresTheLowBits : Obligations.SrWriteStoresTheLowBits := by
  refine fun s ctx reg v hh hp hlen => ⟨fun hmissing => ?_, fun c hc hshaped => ?_⟩
  · exact exec_of_not_wellFormed hh (decide_eq_false hmissing.not_gt)
  · obtain ⟨hk, rfl⟩ := State.exists_ctx hlen hc
    refine ⟨fun hnot => exec_srWr_of_none v hh hk (srRegOf_eq_none_of_not_isReg hnot), fun hro => ?_,
      fun hreg hrw => ?_⟩
    · obtain ⟨r, hr, hindex⟩ := exists_reg_of_mem_readOnly s.params hro
      refine exec_srWr_of_readOnly v hh hk ((srRegOf_eq_some_iff hp _ _).mpr ⟨hr, hindex⟩) ?_
      exact (SrContext.writeReg_eq_none_iff hp _ v hr).mpr (hindex ▸ hro)
    · obtain ⟨r, hr, hindex⟩ := (isReg_iff _ _).mp hreg
      obtain ⟨x, hx⟩ : ∃ x, (s.ctx ctx.toNat).writeReg v r = some x :=
        Option.ne_none_iff_exists'.mp fun hnone =>
          hrw (hindex ▸ (SrContext.writeReg_eq_none_iff hp _ v hr).mp hnone)
      obtain ⟨hslpc, hsltp, hsshp⟩ := SrContext.writeReg_rings hx
      refine ⟨x.withoutPvalid, ?_, hindex ▸ regs_written hp hshaped hr hx, hslpc, hsltp, hsshp,
        (SrContext.writeReg_shaped hx).trans hshaped⟩
      exact exec_srWr_of_some v hh hk ((srRegOf_eq_some_iff hp _ _).mpr ⟨hr, hindex⟩) hx

end Sys2Proof.Machine

/-! ## The SR rings (R50, R51, R177, R178) -/

namespace Sys2Proof.Machine

open Sys2Proof.Claims

/-! ### Ring numbers and positions -/

/-- The ring id column of R51. -/
def RingId.number : RingId → BitVec 2
  | .slpc => 0
  | .sltp => 1
  | .sshp => 2

theorem ringOf_eq_some_iff (id : BitVec 2) (r : RingId) : ringOf id = some r ↔ id = r.number := by
  revert id
  cases r <;> decide

/-- The list of rings in the statements, at the id of a ring. -/
theorem SrContext.rings_getElem? (c : SrContext) (id : BitVec 2) :
    [c.slpc, c.sltp, c.sshp][id.toNat]? = (ringOf id).map c.ring := by
  have hcases : ∀ id : BitVec 2, id = 0 ∨ id = 1 ∨ id = 2 ∨ id = 3 := by decide
  obtain rfl | rfl | rfl | rfl := hcases id <;> rfl

theorem SrContext.ring_length {p : Params} {c : SrContext} (h : c.shaped p = true) (r : RingId) :
    (c.ring r).length = r.depth p := by
  obtain ⟨hslpc, hsltp, hsshp⟩ := SrContext.rings_of_shaped h
  cases r with
  | slpc => exact hslpc
  | sltp => exact hsltp
  | sshp => exact hsshp

/-- A ring position exists exactly if the ring does and `1 ≤ k ≤ depth` (R94, R177). -/
theorem ringPos_eq_some_iff (p : Params) (id : BitVec 2) (k : BitVec 14) (r : RingId) (pos : Nat) :
    ringPos p id k = some (r, pos) ↔ ringOf id = some r ∧ k ≠ 0 ∧ k.toNat ≤ r.depth p ∧ k.toNat = pos := by
  have hk : 1 ≤ k.toNat ↔ k ≠ 0 := by
    rw [Nat.one_le_iff_ne_zero, ne_eq, ne_eq, BitVec.toNat_eq]
    rfl
  unfold ringPos
  cases ringOf id with
  | none => simp
  | some r' =>
    simp only [hk, Option.ite_none_right_eq_some, Option.some.injEq, Prod.mk.injEq]
    constructor
    · rintro ⟨⟨hk0, hle⟩, rfl, rfl⟩
      exact ⟨rfl, hk0, hle, rfl⟩
    · rintro ⟨rfl, hk0, hle, rfl⟩
      exact ⟨⟨hk0, hle⟩, rfl, rfl⟩

section

variable {p : Params} {c : SrContext} {id : BitVec 2} {k : BitVec 14}

/-- The position exists, in the words of the statements. -/
theorem ringPos_of_getElem? {l : List Word32} (hc : c.shaped p = true) (hk : k ≠ 0)
    (hl : [c.slpc, c.sltp, c.sshp][id.toNat]? = some l) (hle : k.toNat ≤ l.length) :
    ∃ r, ringPos p id k = some (r, k.toNat) ∧ id = r.number ∧ c.ring r = l := by
  rw [SrContext.rings_getElem?, Option.map_eq_some_iff] at hl
  obtain ⟨r, hr, rfl⟩ := hl
  rw [SrContext.ring_length hc] at hle
  exact ⟨r, (ringPos_eq_some_iff ..).mpr ⟨hr, hk, hle, rfl⟩, (ringOf_eq_some_iff id r).mp hr, rfl⟩

/-- The position does not exist, in the words of the statements. -/
theorem ringPos_eq_none (hc : c.shaped p = true)
    (h : id = 3 ∨ k = 0 ∨ ∀ l, [c.slpc, c.sltp, c.sshp][id.toNat]? = some l → l.length < k.toNat) :
    ringPos p id k = none := by
  refine Option.eq_none_iff_forall_ne_some.mpr fun ⟨r, pos⟩ hpos => ?_
  obtain ⟨hr, hk, hle, -⟩ := (ringPos_eq_some_iff ..).mp hpos
  obtain rfl | rfl | hlt := h
  · cases hr
  · exact hk rfl
  · have hdeep := hlt (c.ring r) (by rw [SrContext.rings_getElem?, hr, Option.map_some])
    rw [SrContext.ring_length hc] at hdeep
    omega

end

/-! ### SR_PEEK and SR_POKE -/

section

variable {s : State} {ctx : BitVec 4} {ring : BitVec 2} {k : BitVec 14}

theorem exec_srPeek_of_none (hh : s.halt = false) (hk : ctx.toNat < s.params.nCtx)
    (hr : ringPos s.params ring k = none) :
    exec (.srPeek ctx ring k) s = .next (faulted s (encode (.srPeek ctx ring k)) 4) := by
  simp only [exec, execSrPeek, onContext_runs _ _ _ _ hh hk, hr, raiseUsageFault_eq_faulted hh]
  rfl

theorem exec_srPeek_of_some {r : RingId} {pos : Nat} (hh : s.halt = false) (hk : ctx.toNat < s.params.nCtx)
    (hr : ringPos s.params ring k = some (r, pos)) :
    exec (.srPeek ctx ring k) s =
      .next (answered s (okWord 0 (ringPeek ((s.ctx ctx.toNat).ring r) pos).toNat)) := by
  simp only [exec, execSrPeek, onContext_runs _ _ _ _ hh hk, hr, respondOk_eq]

variable (v : Word32)

theorem exec_srPoke_of_none (hh : s.halt = false) (hk : ctx.toNat < s.params.nCtx)
    (hr : ringPos s.params ring k = none) :
    exec (.srPoke ctx ring k v) s = .next (faulted s (encode (.srPoke ctx ring k v)) 4) := by
  simp only [exec, execSrPoke, onContext_runs _ _ _ _ hh hk, hr, raiseUsageFault_eq_faulted hh]
  rfl

theorem exec_srPoke_of_some {r : RingId} {pos : Nat} (hh : s.halt = false) (hk : ctx.toNat < s.params.nCtx)
    (hr : ringPos s.params ring k = some (r, pos)) :
    exec (.srPoke ctx ring k v) s =
      .next (answered (s.withCtx ctx.toNat ((s.ctx ctx.toNat).withRing r
        (ringPoke ((s.ctx ctx.toNat).ring r) pos v)).withoutPvalid) (okWord 0 0)) := by
  simp only [exec, execSrPoke, onContext_runs _ _ _ _ hh hk, hr, respondOk_eq]
  rfl

end

/-- The context after SR_POKE, ring by ring. -/
theorem SrContext.poked_eq (c : SrContext) (r : RingId) (k : Nat) (v : Word32) :
    (c.withRing r (ringPoke (c.ring r) k v)).withoutPvalid =
      { c with
        slpc := if r.number = 0 then c.slpc.set (k - 1) v else c.slpc,
        sltp := if r.number = 1 then c.sltp.set (k - 1) v else c.sltp,
        sshp := if r.number = 2 then c.sshp.set (k - 1) v else c.sshp,
        pvalid := false } := by
  cases r <;> rfl

/-- Settles O44: an existing position reads the list's cell at `k - 1`. -/
theorem srPeekAnswersTheCell : Obligations.SrPeekAnswersTheCell := by
  refine fun s ctx ring k hh hlen => ⟨fun hmissing => ?_, fun c hc hshaped => ?_⟩
  · exact exec_of_not_wellFormed hh (decide_eq_false hmissing.not_gt)
  · obtain ⟨hctx, rfl⟩ := State.exists_ctx hlen hc
    refine ⟨fun hbad => exec_srPeek_of_none hh hctx (ringPos_eq_none hshaped hbad), fun l v hk hl hv => ?_⟩
    obtain ⟨hlt, -⟩ := List.getElem?_eq_some_iff.mp hv
    obtain ⟨r, hpos, -, rfl⟩ := ringPos_of_getElem? hshaped hk hl (by omega)
    have hcell : ringPeek ((s.ctx ctx.toNat).ring r) k.toNat = v := by
      simp only [ringPeek, List.getD_eq_getElem?_getD, hv, Option.getD_some]
    rw [exec_srPeek_of_some hh hctx hpos, hcell]

/-- Settles O45: an existing position is overwritten in its ring, and `PVALID` is cleared. -/
theorem srPokeOverwritesTheCell : Obligations.SrPokeOverwritesTheCell := by
  refine fun s ctx ring k v hh hlen => ⟨fun hmissing => ?_, fun c hc hshaped => ?_⟩
  · exact exec_of_not_wellFormed hh (decide_eq_false hmissing.not_gt)
  · obtain ⟨hctx, rfl⟩ := State.exists_ctx hlen hc
    refine ⟨fun hbad => exec_srPoke_of_none v hh hctx (ringPos_eq_none hshaped hbad), fun l hk hl hle => ?_⟩
    obtain ⟨r, hpos, rfl, -⟩ := ringPos_of_getElem? hshaped hk hl hle
    rw [exec_srPoke_of_some v hh hctx hpos, SrContext.poked_eq]
    rfl

end Sys2Proof.Machine

/-! ## Usage faults and the halted block (R195 to R198)

A halted block answers and keeps its state; a running block never answers UF_HALTED. -/

namespace Sys2Proof.Machine

open Sys2Proof.Claims

/-! ### A halted block -/

theorem encode_csrRd (csr : Word16) :
    encode (.csrRd csr) = BitVec.ofNat 64 (2 ^ 56 + csr.toNat * 2 ^ 32) := by
  have hcsr := csr.isLt
  apply BitVec.eq_of_toNat_eq
  simp only [encode, encodeFields, joinFields, append_toNat, BitVec.ofNat_eq_ofNat, BitVec.toNat_ofNat]
  omega

theorem decode_encode_csrRd (csr : Word16) : decode (encode (.csrRd csr)) = .ok (.csrRd csr) := by
  rw [decode, splitFields_encode]
  rfl

section

variable {i : Instr} {s t : State} {w : Word64}

theorem usageFaulted_of_halted (hh : s.halt = true) (word : Word64) (f : UsageFault) :
    usageFaulted s word f = answered s (faultWord f.code.toNat) := by
  simp [usageFaulted, hh]

/-- The halt check at the head of a command (R198 step 1). -/
theorem ite_halt_of_halted (hh : s.halt = true) (word : Word64) (k : Out) :
    (if s.halt then raiseUsageFault word .halted s else k) = .next (answered s (faultWord 15)) := by
  rw [if_pos hh, raiseUsageFault_eq, usageFaulted_of_halted hh]
  rfl

/-- While halted every command but NOP and CSR_RD is answered UF_HALTED (R197). -/
theorem exec_of_halted (hh : s.halt = true) (hnop : i ≠ .nop) (hcsr : ∀ csr, i ≠ .csrRd csr) :
    exec i s = .next (answered s (faultWord 15)) := by
  cases i with
  | nop => exact absurd rfl hnop
  | csrRd csr => exact absurd rfl (hcsr csr)
  | rcEncInit | rcDecInit | rcEncode | rcDecode | rcGetLength | rcEncWrapup | rcCheck | bufRd | bufWr | cdfRd
  | srClear | srCopy | srRd | srWr | srPeek | srPoke | srPredict | srCommit => exact ite_halt_of_halted hh _ _

theorem acceptedWhileHalted_iff (w : Word64) :
    acceptedWhileHalted w = true ↔ opcOf w = 0x00 ∨ opcOf w = 0x01 := by
  simp only [acceptedWhileHalted, Bool.or_eq_true, beq_iff_eq, opcOf_eq, ← BitVec.toNat_inj]
  rfl

/-- The opcodes a halted block looks at are assigned, so that such a word fails to decode only by its fields. -/
theorem decode_of_accepted {e : DecodeError} (hacc : acceptedWhileHalted w = true) (h : decode w = .error e) :
    e = .field := by
  have hrow : ∃ row ∈ unusedBits, opcOf w = row.1 := by
    obtain hopc | hopc := (acceptedWhileHalted_iff w).mp hacc
    · exact ⟨(0x00, 0x00FFFFFFFFFFFFFF), by decide, hopc⟩
    · exact ⟨(0x01, 0x00FF0000FFFFFFFF), by decide, hopc⟩
  obtain ⟨row, hmem, hopc⟩ := hrow
  obtain ⟨i, hi⟩ := decode_of_row hmem hopc
  rw [hi, ifZero] at h
  split at h <;> cases h
  rfl

/-- A halted block answers UF_HALTED to every word whose opcode is not that of NOP or CSR_RD. -/
theorem presentWord_of_halted (hh : s.halt = true) (hnop : opcOf w ≠ 0x00) (hcsr : opcOf w ≠ 0x01) :
    presentWord w s = .next (answered s (faultWord 15)) := by
  cases hd : decode w with
  | error e =>
    have hacc : acceptedWhileHalted w = false :=
      Bool.eq_false_iff.mpr fun hacc => ((acceptedWhileHalted_iff w).mp hacc).elim hnop hcsr
    rw [presentWord_of_error hd, usageFaulted_of_halted hh, hh, hacc]
    rfl
  | ok i =>
    obtain rfl := encode_of_decode hd
    rw [opcOf_encode] at hnop hcsr
    rw [presentWord_of_ok hd]
    exact exec_of_halted hh (by rintro rfl; exact hnop rfl) (by rintro csr rfl; exact hcsr rfl)

theorem nop_or_csrRd_of_opcOf (h : opcOf (encode i) = 0x00 ∨ opcOf (encode i) = 0x01) :
    i = .nop ∨ ∃ csr, i = .csrRd csr := by
  rw [opcOf_encode] at h
  cases i with
  | nop => exact .inl rfl
  | csrRd csr => exact .inr ⟨csr, rfl⟩
  | _ => simp [encodeFields] at h

/-- A halted block answers NOP and CSR_RD, of which only the second can fault: a CSR that is not in the table. -/
theorem exec_halted_accepted (hh : s.halt = true) (hi : i = .nop ∨ ∃ csr, i = .csrRd csr)
    (h : exec i s = .next t) : ∃ r, t = answered s r ∧ (classOf r = 2 → codeOf r = 4) := by
  obtain rfl | ⟨csr, rfl⟩ := hi
  · cases (respondOk_eq 0 s).symm.trans h
    exact ⟨_, rfl, fun hfault => by cases hfault⟩
  · cases hcsr : csrOf csr.toNat with
    | none =>
      rw [exec_csrRd_of_none s hcsr, usageFaulted_of_halted hh] at h
      cases h
      exact ⟨_, rfl, fun _ => rfl⟩
    | some r =>
      rw [exec_csrRd_of_some s hcsr] at h
      cases h
      exact ⟨_, rfl, fun hfault => by simp at hfault⟩

/-- What a halted block answers: no fault but UF_HALTED, and the UF_FIELD or UF_ADDR of a NOP or CSR_RD. -/
theorem presentWord_halted_cases (hh : s.halt = true) (h : presentWord w s = .next t) :
    ∃ r, t = answered s r ∧ (classOf r = 2 → codeOf r = 15 ∨
      ((codeOf r = 2 ∨ codeOf r = 4) ∧ (opcOf w = 0x00 ∨ opcOf w = 0x01))) := by
  by_cases hopc : opcOf w = 0x00 ∨ opcOf w = 0x01
  · cases hd : decode w with
    | error e =>
      have hacc := (acceptedWhileHalted_iff w).mpr hopc
      obtain rfl := decode_of_accepted hacc hd
      rw [presentWord_of_error hd, usageFaulted_of_halted hh, hh, hacc] at h
      cases h
      exact ⟨_, rfl, fun _ => .inr ⟨.inl rfl, hopc⟩⟩
    | ok i =>
      obtain rfl := encode_of_decode hd
      rw [presentWord_of_ok hd] at h
      obtain ⟨r, rfl, hcode⟩ := exec_halted_accepted hh (nop_or_csrRd_of_opcOf hopc) h
      exact ⟨r, rfl, fun hfault => .inr ⟨.inr (hcode hfault), hopc⟩⟩
  · obtain ⟨hnop, hcsr⟩ := not_or.mp hopc
    rw [presentWord_of_halted hh hnop hcsr] at h
    cases h
    exact ⟨_, rfl, fun _ => .inl rfl⟩

end

/-- Settles O12: a step that is no reset presents a word, and a halted block only answers it. -/
theorem haltedBlockAnswersOnly : Obligations.HaltedBlockAnswersOnly := by
  intro s hh
  refine ⟨fun w hnop hcsr => presentWord_of_halted hh hnop hcsr, respondOk_eq 0 s,
    fun hvalid csr e he hidx => ?_, fun t h ht => ?_⟩
  · rw [← encode_csrRd, presentWord_of_ok (decode_encode_csrRd csr)]
    exact (csrReadsTheTable s csr hvalid).1 e he hidx
  · unfold step at h
    split at h
    · cases h
      simp [hh] at ht
    · next e rest hport =>
      cases e with
      | reset => exact ⟨rest, hport⟩
      | command w =>
        obtain ⟨r, rfl, -⟩ := presentWord_halted_cases (s := s.withPort rest) hh h
        exact absurd (ht.symm.trans hh) Bool.false_ne_true

/-! ### A running block -/

/-- `RunsTo i s o`: `o` is an outcome that the command `i` can have on the running block `s`: it completes, it is
refused for the sticky error, it raises an RC error or a usage fault. Code 4 is for the inits only, and UF_HALTED is
not among the faults. -/
inductive RunsTo (i : Instr) (s : State) : Out → Prop
  | completes (r1 : BitVec 20) (r0 : Word32) (u : State) :
      RunsTo i s (.next (answered u (okWord r1.toNat r0.toNat)))
  | refused (he : s.err = true) : RunsTo i s (.next (answered s (errWord s.errCode.toNat)))
  | failed (e : RcError) (hne : e ≠ .length) : RunsTo i s (.next (rcFailed s e.code.toNat))
  | encTooLong (len : Word16) (hi : i = .rcEncInit len) (hlen : s.params.bufBytes < len.toNat) :
      RunsTo i s (.next (rcFailed (s.withSession .enc 0 0) 4))
  | decTooLong (len : Word16) (hi : i = .rcDecInit len) (hlen : s.params.bufBytes < len.toNat) :
      RunsTo i s (.next (rcFailed (s.withSession .dec 0 0) 4))
  | faults (f : UsageFault) (hne : f ≠ .halted) : RunsTo i s (.next (faulted s (encode i) f.code.toNat))

namespace RunsTo

variable {i : Instr} {s : State}

theorem ok (r1 : BitVec 20) (r0 : Word32) (u : State) : RunsTo i s (respond .ok 0 r1 r0 u) :=
  respond_ok_eq r1 r0 u ▸ .completes r1 r0 u

theorem error (e : RcError) (hne : e ≠ .length := by decide) : RunsTo i s (raiseRcError e s) :=
  raiseRcError_eq e s ▸ .failed e hne

theorem fault (f : UsageFault) (hne : f ≠ .halted := by decide) (hh : s.halt = false := by assumption) :
    RunsTo i s (raiseUsageFault (encode i) f s) :=
  raiseUsageFault_eq_faulted hh (encode i) f ▸ .faults f hne

theorem ite {p : Prop} [Decidable p] {a b : Out} (ha : RunsTo i s a) (hb : RunsTo i s b) :
    RunsTo i s (if p then a else b) := by
  split
  · exact ha
  · exact hb

/-- The halt check of a running block. -/
theorem running (hh : s.halt = false) {k : Out} (hk : RunsTo i s k) :
    RunsTo i s (if s.halt then raiseUsageFault (encode i) .halted s else k) := by
  rwa [hh, if_neg Bool.false_ne_true]

theorem onContext (hh : s.halt = false) {c : Nat} {k : SrContext → Out} (hk : ∀ x, RunsTo i s (k x)) :
    RunsTo i s (onContext (encode i) c s k) :=
  running hh (.ite (.fault .ctx) (hk _))

theorem inMode (hh : s.halt = false) {m : RcMode} {k : Out} (hk : RunsTo i s k) :
    RunsTo i s (inMode (encode i) m s k) := by
  refine running hh (.ite (.fault .mode) ?_)
  split
  · next he =>
    rw [refuseErr_eq]
    exact .refused he
  · exact hk

end RunsTo

/-- Every command on a running block. -/
theorem exec_runsTo (i : Instr) {s : State} (hh : s.halt = false) : RunsTo i s (exec i s) := by
  cases i with
  | nop => exact .ok ..
  | csrRd csr =>
    dsimp only [exec, execCsrRd]
    split
    · exact .fault .addr
    · exact .ok ..
  | rcEncInit len =>
    rw [exec_rcEncInit hh]
    split
    · next hlen => exact .encTooLong len rfl hlen
    · exact .completes 0 0 _
  | rcDecInit len =>
    rw [exec_rcDecInit hh]
    split
    · next hlen => exact .decTooLong len rfl hlen
    · exact .completes 0 0 _
  | rcEncode base nsym sym =>
    dsimp only [exec, execRcEncode, encodeInterval]
    exact .inMode hh (.ite (.fault .symbol) (.ite (.fault .addr) (.ite (.fault .cdf)
      (.ite (.error .writeBeyondBuffer) (.ite (.fault .carry) (.ok ..))))))
  | rcDecode base nsym hint =>
    dsimp only [exec, execRcDecode, decodeSymbol]
    refine .inMode hh (.ite (.fault .symbol) (.ite (.fault .addr) ?_))
    split
    · exact .error .cdfOutOfRange
    · exact .ite (.error .truncated) (.ok ..)
  | rcGetLength => exact .running hh (.ite (.ok ..) (.fault .mode))
  | rcEncWrapup =>
    dsimp only [exec, execRcEncWrapup, wrapUp]
    exact .inMode hh (.ite (.fault .addr) (.ite (.error .writeBeyondBuffer) (.ite (.fault .carry) (.ok ..))))
  | rcCheck =>
    exact .inMode hh (.ite (.fault .addr) (.ite (.error .checkFailed) (.ite (.error .checkFailed) (.ok ..))))
  | bufRd addr => exact .running hh (.ite (.fault .addr) (.ok ..))
  | bufWr addr byte => exact .running hh (.ite (.fault .mode) (.ite (.fault .addr) (.ok ..)))
  | cdfRd index => exact .running hh (.ite (.fault .addr) (.ok ..))
  | srClear ctx => exact .onContext hh fun _ => .ok ..
  | srCopy dst src => exact .onContext hh fun _ => .ite (.fault .ctx) (.ok ..)
  | srRd | srPeek | srPoke =>
    dsimp only [exec, execSrRd, execSrPeek, execSrPoke]
    refine .onContext hh fun _ => ?_
    split
    · exact .fault .addr
    · exact .ok ..
  | srWr ctx reg value =>
    dsimp only [exec, execSrWr]
    refine .onContext hh fun _ => ?_
    split
    · exact .fault .addr
    · split
      · exact .fault .ro
      · exact .ok ..
  | srPredict ctx x =>
    dsimp only [exec, execSrPredict]
    exact .onContext hh fun _ => .ite (.fault .seq) (.ite (.fault .order) (.ite (.fault .order)
      (.ite (.fault .lag) (.ok ..))))
  | srCommit ctx q => exact .onContext hh fun _ => .ite (.ok ..) (.fault .seq)

section

variable {i : Instr} {s t u : State} {w r : Word64}

/-- A completion touches neither `HALT` nor, but for the inits that clear it, the sticky error. -/
theorem Completes.flags {r1 : BitVec 20} {r0 : Word32} (h : Completes s i u r1 r0) :
    u.halt = s.halt ∧ ((u.err = s.err ∧ u.errCode = s.errCode) ∨ u.err = false) := by
  cases h with
  | rcEncInit | rcDecInit => exact ⟨rfl, .inr rfl⟩
  | nop | csrRd | rcEncode | rcDecode | rcGetLength | rcEncWrapup | rcCheck | bufRd | bufWr | cdfRd | srRd | srPeek =>
    exact ⟨rfl, .inl ⟨rfl, rfl⟩⟩

/-- A command that answers OK neither halts the block nor sets the sticky error. -/
theorem exec_flags_of_ok (h : exec i s = .next t) (hr : t.resp = some r) (hok : classOf r = 0) :
    t.halt = s.halt ∧ ((t.err = s.err ∧ t.errCode = s.errCode) ∨ t.err = false) := by
  obtain ⟨u, r1, r0, hc, rfl⟩ | ⟨k, x, r0, -, -, rfl⟩ := (exec_answers h).of_classOf_ok hr hok
  · exact hc.flags
  · exact ⟨rfl, .inl ⟨rfl, rfl⟩⟩

/-- What a running block answers: a usage fault other than UF_HALTED, which it records; or no fault, and it goes on
running. -/
theorem presentWord_running_cases (hh : s.halt = false) (h : presentWord w s = .next t) :
    (∃ f : UsageFault, f ≠ .halted ∧ t = faulted s w f.code.toNat) ∨
      (t.halt = false ∧ ∃ r, t.resp = some r ∧ classOf r ≠ 2) := by
  cases hd : decode w with
  | error e =>
    rw [presentWord_of_error_running hd hh] at h
    cases h
    exact .inl ⟨faultOfDecode e, by cases e <;> decide, rfl⟩
  | ok i =>
    obtain rfl := encode_of_decode hd
    rw [presentWord_of_ok hd] at h
    have hok {r : Word64} (hr : t.resp = some r) (hclass : classOf r = 0) : t.halt = false :=
      (exec_flags_of_ok h hr hclass).1.trans hh
    cases h ▸ exec_runsTo i hh with
    | completes r1 r0 u => exact .inr ⟨hok rfl (classOf_okWord r1 r0), _, rfl, by simp⟩
    | refused => exact .inr ⟨hh, _, rfl, by simp⟩
    | failed e => exact .inr ⟨hh, _, rfl, by simp⟩
    | encTooLong | decTooLong => exact .inr ⟨hh, _, rfl, by decide⟩
    | faults f hne => exact .inl ⟨f, hne, rfl⟩

end

theorem UsageFault.code_le_of_ne_halted {f : UsageFault} (h : f ≠ .halted) :
    1 ≤ f.code.toNat ∧ f.code.toNat ≤ 12 := by
  cases f with
  | halted => exact absurd rfl h
  | _ => decide

/-- Settles O11: on a running block the fault is the one recorded, a halted block only answers. -/
theorem usageFaultIsPrecise : Obligations.UsageFaultIsPrecise := by
  intro s t w r h hr
  cases hh : s.halt with
  | true =>
    obtain ⟨r', rfl, hfault⟩ := presentWord_halted_cases hh h
    obtain rfl : r' = r := Option.some.inj hr
    exact ⟨by simp, by simp, fun _ => ⟨rfl, hfault⟩⟩
  | false =>
    obtain ⟨f, hne, rfl⟩ | ⟨hrun, r', hr', hclass⟩ := presentWord_running_cases hh h
    · obtain rfl : faultWord f.code.toNat = r := Option.some.inj hr
      obtain ⟨hpos, hle⟩ := UsageFault.code_le_of_ne_halted hne
      exact ⟨fun _ => iff_of_true rfl (classOf_faultWord f.code), fun _ _ => ⟨_, hpos, hle, rfl⟩, by simp⟩
    · obtain rfl : r' = r := Option.some.inj (hr'.symm.trans hr)
      exact ⟨fun _ => iff_of_false (by simp [hrun]) hclass, by simp [hrun], by simp⟩

/-! ## RC errors (R191 to R193) -/

/-! ### Setting `ERR` (R192) -/

@[simp] theorem usageFaulted_err (s : State) (word : Word64) (f : UsageFault) :
    (usageFaulted s word f).err = s.err := by
  unfold usageFaulted; split <;> rfl

@[simp] theorem usageFaulted_errCode (s : State) (word : Word64) (f : UsageFault) :
    (usageFaulted s word f).errCode = s.errCode := by
  unfold usageFaulted; split <;> rfl

/-- The codes of R191 but that of an init. -/
theorem RcError.code_mem_of_ne_length {e : RcError} (h : e ≠ .length) : e.code.toNat ∈ [1, 2, 3, 5] := by
  cases e with
  | length => exact absurd rfl h
  | _ => decide

section

variable {i : Instr} {s t : State}

/-- Only a running block sets `ERR`. -/
theorem Answers.running_of_err (h : Answers i s t) (he : s.err = false) (ht : t.err = true) : s.halt = false := by
  have hsame (hsame : t.err = s.err ∨ t.err = false) : s.halt = false := by simp [ht, he] at hsame
  cases h with
  | fault => exact hsame (.inl (by simp))
  | sticky hh | raised _ hh | encTooLong _ _ hh | decTooLong _ _ hh | stores _ _ _ hh => exact hh
  | completes u r1 r0 hc => exact hsame (hc.flags.2.imp_left And.left)

end

/-- Settles O13. -/
theorem rcErrorIsPrecise : Obligations.RcErrorIsPrecise := by
  intro i s t he h ht
  have hh := (exec_answers h).running_of_err he ht
  have hok {r : Word64} (hr : t.resp = some r) (hclass : classOf r = 0) : t.err = false :=
    (exec_flags_of_ok h hr hclass).2.elim (fun hsame => hsame.1.trans he) id
  cases h ▸ exec_runsTo i hh with
  | completes r1 r0 u => exact absurd ((hok rfl (classOf_okWord r1 r0)).symm.trans ht) Bool.false_ne_true
  | refused herr => exact absurd (he.symm.trans herr) Bool.false_ne_true
  | faults f => exact absurd (he.symm.trans ht) Bool.false_ne_true
  | failed e hne => exact .inl ⟨_, RcError.code_mem_of_ne_length hne, rfl⟩
  | encTooLong len hi hlen => exact .inr (.inl ⟨len, hlen, hi, rfl⟩)
  | decTooLong len hi hlen => exact .inr (.inr ⟨len, hlen, hi, rfl⟩)

/-! ### While `ERR` is set (R193) -/

section

variable {i : Instr} {s t : State}

/-- The gate of the four RC commands of a session: the mode check precedes it. -/
theorem inMode_of_err (hh : s.halt = false) (he : s.err = true) (word : Word64) (m : RcMode) (k : Out) :
    inMode word m s k =
      .next (if s.mode = m then answered s (errWord s.errCode.toNat) else faulted s word 5) := by
  rw [inMode_eq_of_running hh, if_pos he]
  by_cases hm : s.mode = m
  · rw [if_neg (not_not_intro hm), if_pos hm]
  · rw [if_pos hm, if_neg hm]

/-- In a session RC_GET_LENGTH answers OK, and does not look at `ERR` (R116). -/
theorem exec_rcGetLength_ok (hh : s.halt = false) (hm : s.mode = .enc ∨ s.mode = .dec) :
    ∃ r, classOf r = 0 ∧ exec .rcGetLength s = .next (answered s r) := by
  rw [exec_rcGetLength hh, if_pos ((inSession_iff s.mode).mpr hm)]
  exact ⟨_, classOf_okWord _ _, rfl⟩

/-- An init clears `ERR`, or sets it with code 4 (R101, R102). -/
theorem exec_init_err {len : Word16} (hh : s.halt = false)
    (h : exec (.rcEncInit len) s = .next t ∨ exec (.rcDecInit len) s = .next t) :
    if len.toNat ≤ s.params.bufBytes then t.err = false ∧ t.errCode = 0 else t.err = true ∧ t.errCode = 4 := by
  rw [exec_rcEncInit hh, exec_rcDecInit hh] at h
  by_cases hlen : len.toNat ≤ s.params.bufBytes
  · rw [if_neg (Nat.not_lt.mpr hlen), if_neg (Nat.not_lt.mpr hlen)] at h
    rw [if_pos hlen]
    obtain h | h := h <;> cases h <;> exact ⟨rfl, rfl⟩
  · rw [if_pos (Nat.lt_of_not_le hlen), if_pos (Nat.lt_of_not_le hlen)] at h
    rw [if_neg hlen]
    obtain h | h := h <;> cases h <;> exact ⟨rfl, rfl⟩

/-- While `ERR` stays set the code stays, but for an init that sets it again. -/
theorem Answers.errCode_of_err (h : Answers i s t) (he : s.err = true) (ht : t.err = true) :
    t.errCode = s.errCode ∨ ((∃ len, i = .rcEncInit len) ∨ ∃ len, i = .rcDecInit len) ∧ t.errCode = 4 := by
  cases h with
  | fault => exact .inl (by simp)
  | sticky | stores => exact .inl rfl
  | raised _ _ _ hclear => exact absurd (hclear.symm.trans he) Bool.false_ne_true
  | encTooLong len hi => exact .inr ⟨.inl ⟨len, hi⟩, rfl⟩
  | decTooLong len hi => exact .inr ⟨.inr ⟨len, hi⟩, rfl⟩
  | completes u r1 r0 hc =>
    obtain ⟨-, hcode⟩ | hclear := hc.flags.2
    · exact .inl hcode
    · exact absurd (hclear.symm.trans ht) Bool.false_ne_true

/-! ### The commands that do not look at `ERR` -/

theorem usageFaulted_withoutErr (s : State) (word : Word64) (f : UsageFault) :
    usageFaulted s.withoutErr word f = (usageFaulted s word f).withoutErr := by
  cases h : s.halt <;> simp [usageFaulted, h] <;> rfl

/-- `ErrBlind o o'`: `o` is a next state, and `o'` is the same one with the sticky error cleared. -/
def ErrBlind (o o' : Out) : Prop := ∃ t, o = .next t ∧ o' = .next t.withoutErr

namespace ErrBlind

theorem respondOk (r0 : Word32) (u : State) :
    ErrBlind (Machine.respondOk r0 u) (Machine.respondOk r0 u.withoutErr) :=
  ⟨_, rfl, rfl⟩

theorem raise (word : Word64) (f : UsageFault) :
    ErrBlind (raiseUsageFault word f s) (raiseUsageFault word f s.withoutErr) :=
  ⟨_, raiseUsageFault_eq word f s,
    (raiseUsageFault_eq word f s.withoutErr).trans (congrArg _ (usageFaulted_withoutErr s word f))⟩

theorem ite {p : Prop} [Decidable p] {a a' b b' : Out} (ha : ErrBlind a a') (hb : ErrBlind b b') :
    ErrBlind (if p then a else b) (if p then a' else b') := by
  split
  · exact ha
  · exact hb

theorem onContext {word : Word64} {c : Nat} {k k' : SrContext → Out} (hk : ∀ x, ErrBlind (k x) (k' x)) :
    ErrBlind (Machine.onContext word c s k) (Machine.onContext word c s.withoutErr k') :=
  .ite (.raise word .halted) (.ite (.raise word .ctx) (hk _))

end ErrBlind

/-- Every SR command does the same with `ERR` set or clear. -/
theorem exec_errBlind_of_isSr (hi : isSr i = true) : ErrBlind (exec i s) (exec i s.withoutErr) := by
  cases i with
  | srClear ctx => exact .onContext fun _ => .respondOk _ _
  | srCopy dst src => exact .onContext fun _ => .ite (.raise _ _) (.respondOk _ _)
  | srRd | srPeek | srPoke =>
    dsimp only [exec, execSrRd, execSrPeek, execSrPoke, State.withoutErr_params]
    refine .onContext fun _ => ?_
    split
    · exact .raise _ _
    · exact .respondOk _ _
  | srWr ctx reg value =>
    dsimp only [exec, execSrWr, State.withoutErr_params]
    refine .onContext fun _ => ?_
    split
    · exact .raise _ _
    · split
      · exact .raise _ _
      · exact .respondOk _ _
  | srPredict ctx x =>
    dsimp only [exec, execSrPredict, State.withoutErr_params]
    exact .onContext fun _ => .ite (.raise _ _) (.ite (.raise _ _) (.ite (.raise _ _) (.ite (.raise _ _)
      (.respondOk _ _))))
  | srCommit ctx q => exact .onContext fun _ => .ite (.respondOk _ _) (.raise _ _)
  | _ => cases hi

/-- Of the CSRs only `STATUS` shows the sticky error (R41). -/
theorem exec_csrRd_errBlind {csr : Word16} (hcsr : csr ≠ 2) :
    ErrBlind (exec (.csrRd csr) s) (exec (.csrRd csr) s.withoutErr) := by
  cases hr : csrOf csr.toNat with
  | none =>
    rw [exec_csrRd_of_none _ hr, exec_csrRd_of_none _ hr, usageFaulted_withoutErr]
    exact ⟨_, rfl, rfl⟩
  | some r =>
    have hne : r ≠ .status := by
      rintro rfl
      exact hcsr (BitVec.eq_of_toNat_eq ((csrOf_eq_some_iff _ _).mp hr).symm)
    have hvalue : s.withoutErr.csrValue r = s.csrValue r := by
      cases r with
      | status => exact absurd rfl hne
      | _ => rfl
    rw [exec_csrRd_of_some _ hr, exec_csrRd_of_some _ hr, hvalue]
    exact ⟨_, rfl, rfl⟩

theorem exec_errBlind (hi : isSr i = true ∨ i = .nop ∨ (∃ csr : Word16, csr ≠ 2 ∧ i = .csrRd csr) ∨
      (∃ a, i = .bufRd a) ∨ (∃ a b, i = .bufWr a b) ∨ ∃ k, i = .cdfRd k) :
    ErrBlind (exec i s) (exec i s.withoutErr) := by
  obtain hsr | rfl | ⟨csr, hcsr, rfl⟩ | ⟨a, rfl⟩ | ⟨a, b, rfl⟩ | ⟨k, rfl⟩ := hi
  · exact exec_errBlind_of_isSr hsr
  · exact .respondOk 0 s
  · exact exec_csrRd_errBlind hcsr
  · exact .ite (.raise _ _) (.ite (.raise _ _) (.respondOk _ _))
  · exact .ite (.raise _ _) (.ite (.raise _ _) (.ite (.raise _ _) (.respondOk _ _)))
  · exact .ite (.raise _ _) (.ite (.raise _ _) (.respondOk _ _))

end

/-- Settles O14: the gate stands in `inMode`, and the commands without it do not read `ERR`. -/
theorem stickyErrorGates : Obligations.StickyErrorGates := by
  intro s hh he
  refine ⟨fun _ _ _ => inMode_of_err hh he _ _ _, inMode_of_err hh he _ _ _,
    fun _ _ _ => inMode_of_err hh he _ _ _, inMode_of_err hh he _ _ _, exec_rcGetLength_ok hh,
    fun len t h => exec_init_err hh h, fun i t hi h => ?_, fun i t h ht => (exec_answers h).errCode_of_err he ht⟩
  obtain ⟨u, hu, hclear⟩ := exec_errBlind (s := s) hi
  cases hu.symm.trans h
  exact hclear

end Sys2Proof.Machine

/-! ## Encoding and decoding (R80 to R93) -/

namespace Sys2Proof.Machine

open Sys2Proof.Claims

/-- Reading the fields of a command gives the command back: each row of the table reads the operands where the
encoder puts them (R83, R84). -/
theorem decodeFields_encodeFields (i : Instr) : decodeFields (encodeFields i) = .ok i := by
  have hhalves (high low : Word16) :
      (high ++ low).extractLsb' 16 16 = high ∧ (high ++ low).extractLsb' 0 16 = low :=
    ⟨BitVec.extractLsb'_append_eq_left, BitVec.extractLsb'_append_eq_right⟩
  have hring (ring : BitVec 2) (k : BitVec 14) :
      (ring ++ k).extractLsb' 14 2 = ring ∧ (ring ++ k).extractLsb' 0 14 = k :=
    ⟨BitVec.extractLsb'_append_eq_left, BitVec.extractLsb'_append_eq_right⟩
  have hbyte (byte : Byte) :
      (0#24 ++ byte).extractLsb' 8 24 = 0#24 ∧ (0#24 ++ byte).extractLsb' 0 8 = byte :=
    ⟨BitVec.extractLsb'_append_eq_left, BitVec.extractLsb'_append_eq_right⟩
  cases i with
  | nop | csrRd | rcEncInit | rcDecInit | rcGetLength | rcEncWrapup | rcCheck | bufRd | cdfRd | srClear | srCopy
  | srRd | srWr | srPredict | srCommit => rfl
  | rcEncode | rcDecode => simp [encodeFields, decodeFields, ifZero, hhalves]
  | bufWr => simp [encodeFields, decodeFields, ifZero, hbyte]
  | srPeek | srPoke => simp [encodeFields, decodeFields, ifZero, hring]

theorem decode_encode (i : Instr) : decode (encode i) = .ok i := by
  rw [decode, splitFields_encode, decodeFields_encodeFields]

/-- Presenting the word of a command runs the command. -/
theorem presentWord_encode (i : Instr) (s : State) : presentWord (encode i) s = exec i s :=
  presentWord_of_ok (decode_encode i) s

/-- Settles O1. -/
theorem decodeEncodeRoundTrip : Obligations.DecodeEncodeRoundTrip := decode_encode

/-- Settles O2. -/
theorem encodeDecodeRoundTrip : Obligations.EncodeDecodeRoundTrip := fun _ _ => encode_of_decode

/-- Settles O7: each row of the list is one word, split and matched. -/
theorem decodingExamples : Obligations.DecodingExamples := by
  unfold Obligations.DecodingExamples
  decide

theorem ofNat_div_eq_extractLsb' (w : Word64) (k : Nat) :
    BitVec.ofNat 8 (w.toNat / 2 ^ k) = w.extractLsb' k 8 := by
  rw [← Nat.shiftRight_eq_div_pow]
  rfl

/-- Settles O8: byte `k` of the list is the byte of the word at bit `8 · (7 - k)`. -/
theorem serialisedMostSignificantFirst : Obligations.SerialisedMostSignificantFirst := by
  refine fun w rest => ⟨?_, ?_⟩
  · have hbyte (k : Nat) : BitVec.ofNat 8 (w.toNat / 256 ^ k) = w.extractLsb' (8 * k) 8 := by
      rw [← ofNat_div_eq_extractLsb', show 256 = 2 ^ 8 from rfl, ← pow_mul]
    simp only [hbyte]
    rfl
  · have hw := w.isLt
    simp only [wordBytes, takeWord, List.cons_append, List.nil_append, Option.some.injEq, Prod.mk.injEq, and_true]
    apply BitVec.eq_of_toNat_eq
    simp only [append_toNat, BitVec.extractLsb'_toNat, Nat.shiftRight_eq_div_pow]
    omega

end Sys2Proof.Machine

/-! ## One step (R22, R200, R220) -/

namespace Sys2Proof.Machine

open Sys2Proof.Claims

theorem step_of_idle {s : State} (h : s.port = []) : step s = .next s := by
  simp only [step, h]

theorem step_of_command {s : State} {w : Word64} {rest : List HostEvent} (h : s.port = .command w :: rest) :
    step s = presentWord w (s.withPort rest) := by
  simp only [step, h, takeEvent]

theorem decode_tableWord {nbits w : Nat} {i : Instr} (h : decodeTableWord nbits w = some i) :
    decode (tableWord nbits w) = .ok i := by
  unfold decodeTableWord at h
  rw [tableWord]
  cases hd : decode (BitVec.ofNat 64 (w % 2 ^ nbits)) with
  | error e => rw [hd] at h; cases h
  | ok j => rw [hd] at h; cases h; rfl

/-- Settles O4. -/
theorem stepRunsDecodedCommand : Obligations.StepRunsDecodedCommand := by
  refine ⟨fun s w rest i hport hd => ?_, fun s w rest hport => step_of_command hport, fun s nbits w i h => ?_⟩
  · exact (step_of_command hport).trans (presentWord_of_ok hd _)
  · have hport : (s.withFetchWord nbits w).port = .command (tableWord nbits w) :: s.port := rfl
    exact (step_of_command hport).trans (presentWord_of_ok (decode_tableWord h) _)

/-- Settles O5. -/
theorem stepIdlesOrResets : Obligations.StepIdlesOrResets :=
  ⟨fun _ hport => step_of_idle hport, fun _ _ hport => ⟨_, step_of_reset hport, rfl, rfl, rfl⟩⟩

end Sys2Proof.Machine

/-! ## The arithmetic primitives (R13) -/

namespace Sys2Proof.Machine

open Sys2Proof.Claims

/-- Wrapping leaves what 32 bits hold. -/
theorem wrap_toInt_of_bounds {v : Int} (hlow : -2 ^ 31 ≤ v) (hhigh : v < 2 ^ 31) : (wrap v).toInt = v :=
  BitVec.toInt_ofInt_eq_self (by decide) hlow hhigh

/-- The product of a word and a half word, floored by 16 bits, fits a word. -/
theorem mulShift_bounds (a : Word32) (h : Word16) :
    -2 ^ 31 ≤ mulShift a.toInt h.toInt ∧ mulShift a.toInt h.toInt < 2 ^ 31 := by
  have hah : |a.toInt * h.toInt| ≤ 2 ^ 31 * 2 ^ 15 := by
    rw [abs_mul]
    exact mul_le_mul (abs_le.mpr ⟨a.le_toInt, a.toInt_lt.le⟩) (abs_le.mpr ⟨h.le_toInt, h.toInt_lt.le⟩)
      (abs_nonneg _) (by decide)
  obtain ⟨hlow, hhigh⟩ := abs_le.mp hah
  unfold mulShift
  omega

theorem smulwb_toInt (a b : Word32) : (smulwb a b).toInt = mulShift a.toInt (lowHalf b) := by
  obtain ⟨hlow, hhigh⟩ := mulShift_bounds a (b.setWidth 16)
  rw [smulwb_eq]
  exact wrap_toInt_of_bounds hlow hhigh

theorem smulwt_toInt (a b : Word32) : (smulwt a b).toInt = mulShift a.toInt (highHalf b) := by
  obtain ⟨hlow, hhigh⟩ := mulShift_bounds a ((b >>> 16).setWidth 16)
  rw [smulwt_eq]
  exact wrap_toInt_of_bounds hlow hhigh

/-- Halving the floor of `a / d`, one added, rounds `a / (2 · d)` to nearest, ties upward. -/
theorem floor_add_one_half (a d : Int) (hd : 0 < d) : (a / d + 1) / 2 = (a + d) / (d * 2) := by
  rw [← Int.ediv_ediv_of_nonneg hd.le, Int.add_ediv_of_dvd_right dvd_rfl, Int.ediv_self hd.ne']

/-- The rounding shift rounds to nearest, ties upward; its inner sum never wraps. -/
theorem rshiftRound_toInt (a : Word32) {n : Nat} (hn : 2 ≤ n) :
    (rshiftRound a n).toInt = (a.toInt + 2 ^ (n - 1)) / 2 ^ n := by
  obtain ⟨m, rfl⟩ := Nat.exists_eq_add_of_le' hn
  have hlow := a.le_toInt
  have hhigh := a.toInt_lt
  have hpow : (1 : Int) ≤ 2 ^ m := one_le_pow₀ (by decide)
  have hpos : (0 : Int) < 2 ^ m := by positivity
  have hhalf_bounds : -2 ^ 30 ≤ a.toInt / 2 ∧ a.toInt / 2 < 2 ^ 30 := by omega
  obtain ⟨hhalf_low, hhalf_high⟩ := hhalf_bounds
  have hhalf : a.toInt / 2 ^ (m + 1) = a.toInt / 2 / 2 ^ m := by
    rw [pow_succ', Int.ediv_ediv_of_nonneg (by decide)]
  have hbelow : a.toInt / 2 / 2 ^ m < 2 ^ 30 := Int.ediv_lt_of_lt_mul hpos (by linarith)
  have habove : -2 ^ 30 ≤ a.toInt / 2 / 2 ^ m := Int.le_ediv_of_mul_le hpos (by linarith)
  have hinner : (a.sshiftRight (m + 1) + 1).toInt = a.toInt / 2 ^ (m + 1) + 1 := by
    have hwrap : a.sshiftRight (m + 1) + 1 = wrap (a.toInt / 2 ^ (m + 1) + 1) := by
      rw [wrap_add, sshiftRight_eq]; rfl
    rw [hwrap, wrap_toInt_of_bounds (by omega) (by omega)]
  rw [rshiftRound, toInt_sshiftRight_eq_div, show m + 2 - 1 = m + 1 by omega, hinner, pow_one,
    floor_add_one_half _ _ (by positivity), ← pow_succ]

/-- The leading zeros of a word that is not zero give its highest bit. -/
theorem clz32_bounds {a : Word32} (h : a ≠ 0) :
    clz32 a ≤ 31 ∧ 2 ^ (31 - clz32 a) ≤ a.toNat ∧ a.toNat < 2 ^ (32 - clz32 a) := by
  have hne : a.toNat ≠ 0 := fun h0 => h (BitVec.eq_of_toNat_eq h0)
  have hlog : Nat.log2 a.toNat < 32 := (Nat.log2_lt hne).mpr a.isLt
  have hself := Nat.log2_self_le hne
  have hnext := Nat.lt_log2_self (n := a.toNat)
  rw [clz32, if_neg h]
  refine ⟨by omega, ?_, ?_⟩
  · rwa [show 31 - (31 - Nat.log2 a.toNat) = Nat.log2 a.toNat by omega]
  · rwa [show 32 - (31 - Nat.log2 a.toNat) = Nat.log2 a.toNat + 1 by omega]

/-- The clamp keeps a value within its bound, both ends included (R139). -/
theorem clampSym_toInt {bound : Nat} (h : bound < 2 ^ 31) (v : Word32) :
    (clampSym bound v).toInt = max (-(bound : Int)) (min (bound : Int) v.toInt) := by
  rw [clampSym_eq]
  exact wrap_toInt_of_bounds (by omega) (by omega)

/-- Settles O9: each row of R13 is a lemma above or of the recursion on integers. -/
theorem primitivesFollowTheTable : Obligations.PrimitivesFollowTheTable := by
  refine fun a b n => ⟨?_, ?_, fun _ => ⟨?_, toInt_sshiftRight_eq_div a n, ?_⟩, smulwb_toInt a b, smulwt_toInt a b,
    fun hn _ => rshiftRound_toInt a hn, fun h => if_pos h, clz32_bounds, fun _ hn => clampSym_toInt hn a,
    negateIf_zero a, ?_⟩
  · rw [wrap_add, wrap_toInt, wrap_toInt]
  · rw [wrap_sub, wrap_toInt, wrap_toInt]
  · rw [wrap_mul_two_pow, wrap_toInt]
  · rw [BitVec.toNat_ushiftRight, Nat.shiftRight_eq_div_pow]
  · rw [negateIf_ones, wrap_neg, wrap_toInt]

/-! ## The residual (R139) -/

/-- Valid parameters clamp within the signed range (R8). -/
theorem Params.valid_rClamp {p : Params} (h : p.valid = true) : 0 < p.rClamp ∧ p.rClamp < 2 ^ 31 := by
  simp only [Params.valid, Bool.and_eq_true, decide_eq_true_eq] at h
  exact h.2

theorem SrContext.residual_bounds {p : Params} (h : p.valid = true) (c : SrContext) (x : Word32) :
    -(p.rClamp : Int) ≤ (c.residual p x).toInt ∧ (c.residual p x).toInt ≤ p.rClamp := by
  obtain ⟨hpos, hlt⟩ := Params.valid_rClamp h
  rw [SrContext.residual, clampSym_toInt hlt]
  omega

/-- What a command that stores a context answers is the stored command's result. -/
theorem r0Of_okWord_zero (r0 : Word32) : r0Of (okWord 0 r0.toNat) = r0.toNat := r0Of_okWord 0 r0

/-- Settles O50: an SR_PREDICT that answers OK answers its residual. -/
theorem residualIsClamped : Obligations.ResidualIsClamped := by
  intro s t ctx x r hinv h hr hok
  obtain ⟨u, r1, r0, hc, rfl⟩ | ⟨k, c, r0, -, hs, rfl⟩ := (exec_answers h).of_classOf_ok hr hok
  · cases hc
  · obtain rfl := Option.some.inj hr
    cases hs
    rw [r0Of_okWord_zero, BitVec.ofNat_toNat, BitVec.setWidth_eq]
    exact SrContext.residual_bounds hinv.paramsValid _ x

end Sys2Proof.Machine

/-! ## What the coder's walks keep of `BUF` (R60, R107, R108)

Every walk of the range coder over `BUF` is a run of single writes. A property of `BUF` that a write below a bound
keeps is kept by every walk below that bound. -/

namespace Sys2Proof.Machine

open Sys2Proof.Claims

/-- A write below `bound` keeps the property `P` of `BUF`. -/
def KeptByWrites (bound : Nat) (P : Memory → Prop) : Prop :=
  ∀ a byte buf, a < bound → P buf → P (Memory.write a byte buf)

namespace KeptByWrites

variable {bound : Nat} {P : Memory → Prop} {buf : Memory}

theorem carryWalk (hP : KeptByWrites bound P) (epoch : Nat) {j : Nat} (hj : j ≤ bound) (h : P buf) :
    P (carryWalk epoch j buf) := by
  induction j generalizing buf with
  | zero => exact h
  | succ j ih =>
    have hwrite := hP j (Memory.read epoch buf j + 1) buf (by omega) h
    simp only [Machine.carryWalk]
    split
    · exact ih (by omega) hwrite
    · exact hwrite

theorem bufAfterCarry (hP : KeptByWrites bound P) {s : State} (carry : Bool) (hix : s.ix.toNat ≤ bound)
    (h : P s.buf) : P (s.bufAfterCarry carry) := by
  cases carry
  · exact h
  · exact hP.carryWalk _ hix h

theorem emitBytes (hP : KeptByWrites bound P) {n : Nat} (bn : Word32) {ix : Nat} (hix : ix + n ≤ bound)
    (h : P buf) : P (emitBytes n bn ix buf).2 := by
  induction n generalizing bn ix buf with
  | zero => exact h
  | succ n ih => exact ih _ (by omega) (hP _ _ _ (by omega) h)

theorem storeRounded (hP : KeptByWrites bound P) (b24 : Word32) {b ix : Nat} (hix : ix + bytesFor b ≤ bound)
    (h : P buf) : P (storeRounded b24 b ix buf) := by
  unfold Machine.storeRounded
  unfold bytesFor at hix
  by_cases hb : b ≤ 8
  · rw [if_pos hb] at hix
    rw [if_neg (by omega)]
    exact hP _ _ _ (by omega) h
  · rw [if_neg hb] at hix
    rw [if_pos (by omega)]
    exact hP _ _ _ (by omega) (hP _ _ _ (by omega) h)

theorem padLast (hP : KeptByWrites bound P) (epoch : Nat) (bits : Word32) {last : Nat} (hlast : last < bound)
    (h : P buf) : P (padLast epoch bits last buf) := by
  unfold Machine.padLast
  split
  · exact h
  · exact hP _ _ _ hlast h

end KeptByWrites

/-- `BUF` is in canonical form and lists cells below `bound` only. -/
def Memory.goodBelow (bound : Nat) (buf : Memory) : Prop :=
  (Memory.wf buf && buf.all fun c => decide (c.1 < bound)) = true

theorem Memory.goodBelow_iff (bound : Nat) (buf : Memory) :
    Memory.goodBelow bound buf ↔ Memory.wf buf = true ∧ ∀ c ∈ buf, c.1 < bound := by
  simp only [Memory.goodBelow, Bool.and_eq_true, List.all_eq_true, decide_eq_true_eq]

theorem goodBelow_keptByWrites (bound : Nat) : KeptByWrites bound (Memory.goodBelow bound) := by
  intro a byte buf ha h
  obtain ⟨hwf, hlt⟩ := (Memory.goodBelow_iff _ _).mp h
  refine (Memory.goodBelow_iff _ _).mpr ⟨Memory.wf_write _ _ _ hwf, fun c hc => ?_⟩
  obtain rfl | hc := Memory.mem_write _ _ _ _ hc
  · exact ha
  · exact hlt c hc

/-- A written cell stays written. -/
theorem written_keptByWrites (bound j : Nat) :
    KeptByWrites bound fun buf => (Memory.lookup j buf).isSome = true := by
  intro a byte buf _ h
  by_cases hj : j = a
  · subst hj; simp
  · rwa [Memory.lookup_write_other _ _ _ _ hj]

/-- Emission writes every cell it passes (R108). -/
theorem emitBytes_written {n : Nat} (bn : Word32) {ix : Nat} (buf : Memory) {j : Nat} (hlow : ix ≤ j)
    (hhigh : j < ix + n) : (Memory.lookup j (emitBytes n bn ix buf).2).isSome = true := by
  induction n generalizing bn ix buf with
  | zero => omega
  | succ n ih =>
    obtain rfl | hlt : ix = j ∨ ix + 1 ≤ j := by omega
    · have hwritten : (Memory.lookup ix (Memory.write ix (bn.extractLsb' 24 8) buf)).isSome = true := by simp
      exact (written_keptByWrites (ix + 1 + n) ix).emitBytes (bn <<< 8) le_rfl hwritten
    · exact ih _ _ hlt (by omega)

end Sys2Proof.Machine

/-! ## Good contexts (R45 to R55)

Every context that a command stores is good where the ones it read were. -/

namespace Sys2Proof.Machine

open Sys2Proof.Claims

theorem SrContext.good_iff (p : Params) (c : SrContext) :
    c.good p = true ↔ c.shaped p = true ∧ (c.pvalid = true → c.configured p = true) ∧
      (c.lDither = 0 ∨ c.lDither = 0xFFFFFFFF) ∧ -(p.rClamp : Int) ≤ c.lR.toInt ∧ c.lR.toInt ≤ p.rClamp := by
  simp only [good, Bool.and_eq_true, Bool.or_eq_true, Bool.not_eq_true', beq_iff_eq, decide_eq_true_eq, and_assoc]
  cases c.pvalid <;> simp

theorem SrContext.shaped_iff (p : Params) (c : SrContext) :
    c.shaped p = true ↔ c.a.length = p.lpcOrdMax ∧ c.ar.length = p.shpOrdMax ∧ c.b.length = ltpOrder ∧
      c.slpc.length = p.slpcDepth ∧ c.sltp.length = p.ringDepth ∧ c.sshp.length = p.ringDepth := by
  simp only [shaped, Bool.and_eq_true, beq_iff_eq, and_assoc]

theorem SrContext.zero_good (p : Params) : (SrContext.zero p).good p = true := by
  refine (good_iff _ _).mpr ⟨(shaped_iff _ _).mpr (by simp [zero]), fun h => (by cases h), .inl rfl, ?_, ?_⟩ <;>
    simp [zero]

/-- A context that SR_PREDICT accepts is configured (R131). -/
theorem SrContext.configured_of_predictCheck {p : Params} {c : SrContext} (h : c.predictCheck p = none) :
    c.configured p = true := by
  unfold predictCheck at h
  split_ifs at h with hp hlpc hshp hlag
  simp only [Bool.not_eq_true', Bool.not_eq_false] at hlpc hshp
  cases hv : c.voiced <;> simp [configured, hlpc, hshp, hv] at hlag ⊢
  exact hlag

section

variable {p : Params} {c x : SrContext}

/-- A context with the shape and the latches of a good one, `PVALID` clear, is good. -/
theorem SrContext.good_of_sameLatches (hc : c.good p = true) (hx : SameLatches c x) (hshaped : x.shaped p = true)
    (hp : x.pvalid = false) : x.good p = true := by
  obtain ⟨-, -, hdither, hr⟩ := (good_iff _ _).mp hc
  have hxd : x.lDither = c.lDither := by rw [SameLatches] at hx; rw [hx]
  have hxr : x.lR = c.lR := by rw [SameLatches] at hx; rw [hx]
  exact (good_iff _ _).mpr ⟨hshaped, by simp [hp], hxd ▸ hdither, hxr ▸ hr⟩

theorem SrContext.poked_shaped (hc : c.shaped p = true) (r : RingId) (k : Nat) (v : Word32) :
    (c.withRing r (ringPoke (c.ring r) k v)).shaped p = true := by
  obtain ⟨ha, har, hb, hslpc, hsltp, hsshp⟩ := (shaped_iff _ _).mp hc
  cases r <;> exact (shaped_iff _ _).mpr (by simp [withRing, ring, ha, har, hb, hslpc, hsltp, hsshp])

theorem SrContext.committed_shaped (hc : c.shaped p = true) (q : Word32) : (c.committed p q).shaped p = true := by
  obtain ⟨ha, har, hb, hslpc, hsltp, hsshp⟩ := (shaped_iff _ _).mp hc
  exact (shaped_iff _ _).mpr ⟨ha, har, hb, ringPush_length _ _ _ hslpc, ringPush_length _ _ _ hsltp,
    ringPush_length _ _ _ hsshp⟩

theorem SrContext.predicted_good (hp : p.valid = true) (hc : c.good p = true) (x : Word32)
    (hcheck : c.predictCheck p = none) : (c.predicted p x).good p = true := by
  obtain ⟨hshaped, -, -, -⟩ := (good_iff _ _).mp hc
  exact (good_iff _ _).mpr ⟨hshaped, fun _ => (configured_of_predictCheck hcheck : c.configured p = true),
    ditherMask_cases _,
    residual_bounds hp c x⟩

end

/-- Every context of a good state is good. -/
theorem State.Inv.ctx_good {s : State} (h : s.Inv) {k : Nat} (hk : k < s.params.nCtx) :
    (s.ctx k).good s.params = true :=
  h.ctxGood _ (List.mem_of_getElem? (State.getElem?_of_lt (h.ctxCount ▸ hk)))

/-- What a command stores in a good state is good. -/
theorem Stores.good {s : State} {i : Instr} {k : Nat} {x : SrContext} {r0 : Word32} (h : Stores s i k x r0)
    (hinv : s.Inv) (hk : k < s.params.nCtx) : x.good s.params = true := by
  have hgood := hinv.ctx_good hk
  obtain ⟨hshaped, -⟩ := (SrContext.good_iff _ _).mp hgood
  cases h with
  | srClear => exact SrContext.zero_good _
  | srCopy hsrc => exact hinv.ctx_good hsrc
  | srWr _ hw =>
    exact SrContext.good_of_sameLatches hgood (SrContext.writeReg_sameLatches hw).withoutPvalid
      ((SrContext.writeReg_shaped hw).trans hshaped) rfl
  | srPoke =>
    exact SrContext.good_of_sameLatches hgood (SrContext.withRing_sameLatches _ _ _).withoutPvalid
      (SrContext.poked_shaped hshaped _ _ _) rfl
  | srPredict hf => exact SrContext.predicted_good hinv.paramsValid hgood _ hf
  | srCommit => exact SrContext.good_of_sameLatches hgood rfl (SrContext.committed_shaped hshaped _) rfl

end Sys2Proof.Machine

/-! ## The invariant (R26 to R32, R45, R57)

`State.Inv` after reset, then after each of the things a command can do. -/

namespace Sys2Proof.Machine

open Sys2Proof.Claims

/-! ### After reset -/

theorem afterReset_inv {p : Params} (hp : p.valid = true) (epoch : Nat) (port : List HostEvent) :
    (State.afterReset p epoch port).Inv where
  paramsValid := hp
  bufGood := rfl
  lenLe := Nat.zero_le _
  ixLe := le_rfl
  rangeGe := fun h => by cases h
  errCodeIff := iff_of_true rfl rfl
  errCodeLe := Nat.zero_le _
  runningClear := fun _ => ⟨rfl, rfl⟩
  haltedCode := fun h => by cases h
  idleClear := fun _ => ⟨rfl, rfl, rfl, rfl, rfl⟩
  encWritten := fun h => by cases h
  ctxCount := List.length_replicate
  ctxGood := fun _ hc => List.eq_of_mem_replicate hc ▸ SrContext.zero_good p

/-- Only an encode session has a coding interval. -/
theorem encoderInterval_of_mode_ne {s : State} (h : s.mode ≠ .enc) : s.EncoderInterval :=
  fun henc => absurd henc h

theorem afterReset_encoderInterval (p : Params) (epoch : Nat) (port : List HostEvent) :
    (State.afterReset p epoch port).EncoderInterval :=
  encoderInterval_of_mode_ne (by simp [State.afterReset])

/-- Settles O18. -/
theorem invHoldsAtReset : Obligations.InvHoldsAtReset :=
  ⟨fun p epoch port hp => ⟨afterReset_inv hp epoch port, afterReset_encoderInterval p epoch port⟩,
    afterReset_inv (by decide) 0 [], afterReset_encoderInterval _ 0 []⟩

/-! ### After an answer or an exceptional outcome -/

section

variable {s : State}

theorem State.Inv.withPort (h : s.Inv) (port : List HostEvent) : (s.withPort port).Inv := { h with }

theorem State.Inv.answered (h : s.Inv) (word : Word64) : (answered s word).Inv := { h with }

theorem State.Inv.faulted (h : s.Inv) (word : Word64) {f : UsageFault} (hf : f ≠ .halted) :
    (faulted s word f.code.toNat).Inv :=
  { h with
    runningClear := fun hh => by cases hh
    haltedCode := fun _ => by
      have hcode : (Claims.faulted s word f.code.toNat).faultCode = f.code := BitVec.ofNat_toNat 4 f.code
      rw [hcode]
      exact UsageFault.code_le_of_ne_halted hf }

theorem RcError.code_ne_zero (e : RcError) : e.code ≠ 0 := by
  cases e <;> decide

/-- An RC error is raised in a session only. -/
theorem State.Inv.rcFailed (h : s.Inv) (hm : s.mode ≠ .idle) (e : RcError) : (rcFailed s e.code.toNat).Inv := by
  have hcode : (Claims.rcFailed s e.code.toNat).errCode = e.code := BitVec.ofNat_toNat 4 e.code
  exact
    { h with
      errCodeIff := by rw [hcode]; exact iff_of_false e.code_ne_zero (by simp [Claims.rcFailed])
      errCodeLe := by rw [hcode]; exact e.code_range.2
      idleClear := fun hidle => absurd hidle hm }

/-! ### After a completion -/

theorem State.Inv.withoutErr (h : s.Inv) : s.withoutErr.Inv :=
  { h with
    errCodeIff := iff_of_true rfl rfl
    errCodeLe := Nat.zero_le _
    idleClear := fun hidle =>
      let ⟨hbase, hrange, hix, hlen, _⟩ := h.idleClear hidle
      ⟨hbase, hrange, hix, hlen, rfl⟩ }

/-- An init enters a session with no byte moved yet. -/
theorem State.Inv.withSession (h : s.Inv) {m : RcMode} (hm : m ≠ .idle) (base : Word32) {len : Word16}
    (hlen : len.toNat ≤ s.params.bufBytes) : (s.withSession m base len).Inv :=
  { h with
    lenLe := hlen
    ixLe := Nat.zero_le _
    rangeGe := fun _ => show 256 ≤ (0xFFFF : Word16).toNat by decide
    idleClear := fun hidle => absurd hidle hm
    encWritten := fun _ j hj => absurd hj (Nat.not_lt_zero j) }

theorem State.Inv.withCtx (h : s.Inv) (k : Nat) {x : SrContext} (hx : x.good s.params = true) :
    (s.withCtx k x).Inv :=
  { h with
    ctxCount := (List.length_set ..).trans h.ctxCount
    ctxGood := fun c hc => (List.mem_or_eq_of_mem_set hc).elim (h.ctxGood c) fun heq => heq ▸ hx }

/-- `BUF` may be replaced out of an encode session. -/
theorem State.Inv.withBuf (h : s.Inv) (hm : s.mode ≠ .enc) {buf : Memory}
    (hbuf : Memory.goodBelow s.params.bufBytes buf) : (s.withBuf buf).Inv :=
  { h with
    bufGood := hbuf
    encWritten := fun henc => absurd henc hm }

/-- A wrap-up leaves the session. -/
theorem State.Inv.finished (h : s.Inv) {buf : Memory} (hbuf : Memory.goodBelow s.params.bufBytes buf) {ix : Word16}
    (hix : ix.toNat ≤ s.len.toNat) : ((s.withBuf buf).withFinished ix).Inv :=
  { h with
    bufGood := hbuf
    ixLe := hix
    rangeGe := fun hsession => by cases hsession
    idleClear := fun hidle => by cases hidle
    encWritten := fun henc => by cases henc }

/-- Coding a symbol moves the coder registers and, in an encode session, writes up to the new `IX`. -/
theorem State.Inv.coded (h : s.Inv) (hm : s.mode ≠ .idle) {buf : Memory}
    (hbuf : Memory.goodBelow s.params.bufBytes buf) (base : Word32) {range ix : Word16}
    (hrange : 256 ≤ range.toNat) (hix : ix.toNat ≤ s.len.toNat)
    (hwritten : s.mode = .enc → ∀ j, j < ix.toNat → (Memory.lookup j buf).isSome = true) :
    ((s.withBuf buf).withCoder base range ix).Inv :=
  { h with
    bufGood := hbuf
    ixLe := hix
    rangeGe := fun _ => hrange
    idleClear := fun hidle => absurd hidle hm
    encWritten := hwritten }

/-- Renormalisation of a sub-interval that is not empty leaves a range of at least 256 (R31). -/
theorem renorm_range_ge (h : 256 ≤ s.range.toNat) {low high : Word16} (hlt : low.toNat < high.toNat) :
    256 ≤ (renorm (s.widthProduct low high)).2.toNat := by
  have hprod : 256 ≤ (s.widthProduct low high).toNat := by
    rw [widthProduct_toNat]
    calc 256 ≤ s.range.toNat * 1 := by omega
      _ ≤ s.range.toNat * (high.toNat - low.toNat) := Nat.mul_le_mul_left _ (by omega)
  obtain ⟨hle, -, heq⟩ | ⟨hle, -, -, heq⟩ | ⟨-, -, heq⟩ := renorm_cases (s.widthProduct low high) <;> rw [heq] <;>
    omega

/-- The new `IX` of a coded symbol is within `LEN`. -/
theorem toNat_ofNat_of_le_len {n : Nat} (h : n ≤ s.len.toNat) : (BitVec.ofNat 16 n).toNat = n := by
  have hlen := s.len.isLt
  rw [BitVec.toNat_ofNat, Nat.mod_eq_of_lt (by omega)]

end

/-- The decoded symbol has a width. -/
theorem cdf_lt_of_findSymbol {s : State} {base nsym sym : Nat} (h : s.findSymbol base nsym = some sym) :
    (s.params.cdf (base + sym)).toNat < (s.params.cdf (base + sym + 1)).toNat := by
  obtain ⟨hsym, hle, habove⟩ := findSymbol_some _ _ _ _ h
  have hlt : s.range.toNat * (s.params.cdf (base + sym)).toNat <
      s.range.toNat * (s.params.cdf (base + (sym + 1))).toNat :=
    Nat.lt_of_le_of_lt hle (habove (sym + 1) (by omega) (by omega))
  exact Nat.lt_of_mul_lt_mul_left hlt

/-- What a completion leaves of a good state is good. -/
theorem Completes.inv {s u : State} {i : Instr} {r1 : BitVec 20} {r0 : Word32} (h : Completes s i u r1 r0)
    (hinv : s.Inv) : u.Inv := by
  have hbuf : Memory.goodBelow s.params.bufBytes s.buf := hinv.bufGood
  have hkept := goodBelow_keptByWrites s.params.bufBytes
  have hlenLe := hinv.lenLe
  have hixLe := hinv.ixLe
  cases h with
  | nop | csrRd | rcGetLength | rcCheck | bufRd | cdfRd | srRd | srPeek => exact hinv
  | rcEncInit _ hlen => exact (hinv.withSession (by decide) 0 hlen).withoutErr
  | rcDecInit _ hlen => exact (hinv.withSession (by decide) _ hlen).withoutErr
  | rcEncode _ hm _ _ _ _ _ _ hlt _ _ _ hn hlen =>
    subst hn
    have hix := toNat_ofNat_of_le_len hlen
    refine hinv.coded (by simp [hm]) (hkept.emitBytes _ (by omega) (hkept.bufAfterCarry _ (by omega) hbuf)) _
      (renorm_range_ge (hinv.rangeGe (by simp [hm, RcMode.inSession])) hlt) (by omega) fun _ j hj => ?_
    rw [hix] at hj
    by_cases hold : j < s.ix.toNat
    · have hwritten := written_keptByWrites s.params.bufBytes j
      exact hwritten.emitBytes _ (by omega) (hwritten.bufAfterCarry _ (by omega) (hinv.encWritten hm j hold))
    · exact emitBytes_written _ _ (by omega) hj
  | rcDecode _ hm _ _ _ _ hfind hlow hhigh _ hn hlen =>
    subst hn hlow hhigh
    have hix := toNat_ofNat_of_le_len hlen
    exact hinv.coded (by simp [hm]) hbuf _
      (renorm_range_ge (hinv.rangeGe (by simp [hm, RcMode.inSession])) (cdf_lt_of_findSymbol hfind)) (by omega)
      fun henc => by simp [hm] at henc
  | @rcEncWrapup b _ _ _ _ _ _ _ _ _ hnw _ _ _ hlen hbuf' =>
    obtain rfl : _ = bytesFor b := hnw
    have hpos := bytesFor_pos b
    subst hbuf'
    exact hinv.finished (hkept.padLast _ _ (by omega)
      (hkept.storeRounded _ (by omega) (hkept.bufAfterCarry _ (by omega) hbuf)))
      (by rw [toNat_ofNat_of_le_len hlen]; exact hlen)
  | bufWr _ hm ha => exact hinv.withBuf hm (hkept _ _ _ ha hbuf)

/-! ### After any command and any step -/

section

variable {i : Instr} {s t : State}

/-- The commands that raise RC errors are legal in a session only. -/
theorem mode_ne_idle_of_legalModes (h : legalModes i = [s.mode]) : s.mode ≠ .idle := by
  intro hidle
  rw [hidle] at h
  cases i <;> cases h

/-- A command that leaves a running block running keeps the invariant. -/
theorem Answers.inv_of_running (h : Answers i s t) (hinv : s.Inv) (hh : s.halt = false) (ht : t.halt = false) :
    t.Inv := by
  have htooLong {m : RcMode} (hm : m ≠ .idle) : (rcFailed (s.withSession m 0 0) RcError.length.code.toNat).Inv :=
    (hinv.withSession hm 0 (Nat.zero_le _)).rcFailed hm .length
  cases h with
  | fault f => rw [usageFaulted_of_running hh] at ht; cases ht
  | sticky => exact hinv.answered _
  | raised e _ hl => exact hinv.rcFailed (mode_ne_idle_of_legalModes hl) e
  | encTooLong | decTooLong => exact htooLong (by decide)
  | completes u r1 r0 hc => exact (hc.inv hinv).answered _
  | stores k x r0 _ hk hs => exact (hinv.withCtx k (hs.good hinv hk)).answered _

theorem presentWord_inv {w : Word64} (hinv : s.Inv) (h : presentWord w s = .next t) : t.Inv := by
  cases hh : s.halt with
  | true =>
    obtain ⟨r, rfl, -⟩ := presentWord_halted_cases hh h
    exact hinv.answered r
  | false =>
    obtain ⟨f, hf, rfl⟩ | ⟨ht, -⟩ := presentWord_running_cases hh h
    · exact hinv.faulted w hf
    · cases hd : decode w with
      | error e =>
        rw [presentWord_of_error_running hd hh] at h
        cases h
        cases ht
      | ok i =>
        rw [presentWord_of_ok hd] at h
        exact (exec_answers h).inv_of_running hinv hh ht

theorem exec_inv (hinv : s.Inv) (h : exec i s = .next t) : t.Inv :=
  presentWord_inv hinv ((presentWord_encode i s).trans h)

end

/-- A step idles, resets the block or presents a word. -/
theorem step_cases {s t : State} (h : step s = .next t) :
    t = s ∨ (∃ rest, t = (s.withPort rest).resetBlock) ∨
      ∃ rest w, presentWord w (s.withPort rest) = .next t := by
  unfold step at h
  split at h
  · cases h
    exact .inl rfl
  · next e rest hport =>
    cases e with
    | command w => exact .inr (.inr ⟨rest, w, h⟩)
    | reset => cases h; exact .inr (.inl ⟨rest, rfl⟩)

/-- Settles O19: a step resets the block, idles or runs a command, each of which keeps `State.Inv`. -/
theorem stepKeepsInv : Obligations.StepKeepsInv := by
  intro s t hinv h
  obtain rfl | ⟨rest, rfl⟩ | ⟨rest, w, hw⟩ := step_cases h
  · exact hinv
  · exact afterReset_inv hinv.paramsValid _ _
  · exact presentWord_inv (hinv.withPort rest) hw

end Sys2Proof.Machine

/-! ## The encoder's coding interval (R107) -/

namespace Sys2Proof.Machine

open Sys2Proof.Claims

section

variable {s t u : State} {i : Instr}

/-- Renormalisation does not widen the sub-interval, on the scale it moves to (R106). -/
theorem newRange_le (prod : Nat) : newRange prod * 2 ^ 16 ≤ prod * 256 ^ moved prod := by
  unfold newRange moved
  split_ifs <;> omega

/-- A sub-interval of the coding interval is within the initial one where the interval is. -/
theorem encoderInterval_encoded {low high : Word16} (hinterval : s.EncoderInterval) (hm : s.mode = .enc)
    (hlt : low.toNat < high.toNat) (hroom : s.encodeCarries low = true → s.carryBlocked = false)
    (hix : s.ix.toNat + s.movedFor low high < 2 ^ 16) : (s.encoded low high).EncoderInterval := by
  intro _
  have hhigh := high.isLt
  have hwidth : s.range.toNat * low.toNat + s.range.toNat * (high.toNat - low.toNat) ≤ s.range.toNat * 2 ^ 16 := by
    rw [← Nat.mul_add]
    exact Nat.mul_le_mul_left _ (by omega)
  have hrange := newRange_le (s.range.toNat * (high.toNat - low.toNat))
  rw [State.encoded_codedLow hroom hix, State.encoded_range_toNat, State.encoded_ix_toNat hix]
  calc (s.codedLow + s.range.toNat * low.toNat) * 256 ^ s.movedFor low high
        + newRange (s.range.toNat * (high.toNat - low.toNat)) * 2 ^ 16
      ≤ (s.codedLow + s.range.toNat * low.toNat) * 256 ^ s.movedFor low high
        + s.range.toNat * (high.toNat - low.toNat) * 256 ^ s.movedFor low high := Nat.add_le_add_left hrange _
    _ = (s.codedLow + (s.range.toNat * low.toNat + s.range.toNat * (high.toNat - low.toNat)))
        * 256 ^ s.movedFor low high := by ring
    _ ≤ 0xFFFF * 2 ^ 16 * 256 ^ s.ix.toNat * 256 ^ s.movedFor low high :=
        Nat.mul_le_mul_right _ ((Nat.add_le_add_left hwidth _).trans (hinterval hm))
    _ = 0xFFFF * 2 ^ 16 * 256 ^ (s.ix.toNat + s.movedFor low high) := by rw [Nat.mul_assoc, ← pow_add]

/-- An encode session begins on the whole initial interval. -/
theorem encoderInterval_withSession (s : State) (m : RcMode) (len : Word16) :
    (s.withSession m 0 len).EncoderInterval := by
  intro _
  simp [State.codedLow, bytesBig]

theorem Completes.encoderInterval {r1 : BitVec 20} {r0 : Word32} (h : Completes s i u r1 r0)
    (hinterval : s.EncoderInterval) : u.EncoderInterval := by
  cases h with
  | nop | csrRd | rcGetLength | rcCheck | bufRd | cdfRd | srRd | srPeek => exact hinterval
  | @rcEncInit len => exact encoderInterval_withSession s .enc len
  | rcDecInit => exact encoderInterval_of_mode_ne (by simp)
  | rcDecode _ hm => exact encoderInterval_of_mode_ne (by simp [hm])
  | rcEncWrapup => exact encoderInterval_of_mode_ne (by simp)
  | bufWr _ hm => exact encoderInterval_of_mode_ne hm
  | rcEncode hh hm he hsym hidx hout hlow hhigh hlt hbn hcarry hroom hn hlen =>
    have hlenLt := s.len.isLt
    have heq := (Completes.rcEncode hh hm he hsym hidx hout hlow hhigh hlt hbn hcarry hroom hn hlen).rcEncode_eq
    rw [heq.1]
    subst hlow hhigh hn
    rw [State.fst_renorm_width] at hlen
    exact encoderInterval_encoded hinterval hm hlt heq.2 (by omega)

theorem usageFaulted_encoderInterval {word : Word64} {f : UsageFault} (h : s.EncoderInterval) :
    (usageFaulted s word f).EncoderInterval := by
  unfold usageFaulted
  split <;> exact h

theorem Answers.encoderInterval (h : Answers i s t) (hinterval : s.EncoderInterval) : t.EncoderInterval := by
  cases h with
  | fault => exact usageFaulted_encoderInterval hinterval
  | sticky | raised | stores => exact hinterval
  | encTooLong | decTooLong => exact encoderInterval_withSession s _ 0
  | completes u r1 r0 hc => exact hc.encoderInterval hinterval

end

/-- Settles O20: of all that a step can do, only RC_ENCODE moves within the coding interval, and RC_ENC_INIT begins
it anew. -/
theorem stepKeepsEncoderInterval : Obligations.StepKeepsEncoderInterval := by
  intro s t _ hinterval h
  obtain rfl | ⟨rest, rfl⟩ | ⟨rest, w, hw⟩ := step_cases h
  · exact hinterval
  · exact afterReset_encoderInterval _ _ _
  · have hport : (s.withPort rest).EncoderInterval := hinterval
    cases hd : decode w with
    | error e =>
      rw [presentWord_of_error hd] at hw
      cases hw
      exact usageFaulted_encoderInterval hport
    | ok i =>
      rw [presentWord_of_ok hd] at hw
      exact (exec_answers hw).encoderInterval hport

end Sys2Proof.Machine

/-! ## No carry passes the start of the payload (R107)

Inside the coding interval a payload of bytes FF leaves no room for a carry. -/

namespace Sys2Proof.Machine

open Sys2Proof.Claims

/-! ### Where UF_CARRY can come from -/

namespace CarryFaultOnlyIf

variable {p : Prop} {s : State}

/-- The halt check is not UF_CARRY. -/
theorem running {word : Word64} {k : Out} (hk : CarryFaultOnlyIf p k) :
    CarryFaultOnlyIf p (if s.halt then raiseUsageFault word .halted s else k) :=
  .ite (.raise word .halted) hk

theorem onContext {word : Word64} {c : Nat} {k : SrContext → Out} (hk : ∀ x, CarryFaultOnlyIf p (k x)) :
    CarryFaultOnlyIf p (Machine.onContext word c s k) :=
  .running (.ite (.raise word .ctx) (hk _))

end CarryFaultOnlyIf

/-- Only the two commands that add to `BASE` can raise UF_CARRY. -/
theorem exec_carryFaultOnlyIf (i : Instr) (s : State) :
    CarryFaultOnlyIf ((∃ base nsym sym, i = .rcEncode base nsym sym) ∨ i = .rcEncWrapup) (exec i s) := by
  cases i with
  | rcEncode base nsym sym => exact .of_holds (.inl ⟨base, nsym, sym, rfl⟩) _
  | rcEncWrapup => exact .of_holds (.inr rfl) _
  | nop => exact .respond _ _ _
  | csrRd csr =>
    dsimp only [exec, execCsrRd]
    split
    · exact .raise _ .addr
    · exact .respond _ _ _
  | rcEncInit len | rcDecInit len =>
    dsimp only [exec, execRcEncInit, execRcDecInit]
    exact .running (.ite (.raiseRcError _) (.respond _ _ _))
  | rcDecode base nsym hint =>
    dsimp only [exec, execRcDecode, decodeSymbol]
    refine .inMode fun _ => .ite (.raise _ .symbol) (.ite (.raise _ .addr) ?_)
    split
    · exact .raiseRcError _
    · exact .ite (.raiseRcError _) (.respond _ _ _)
  | rcGetLength =>
    dsimp only [exec, execRcGetLength]
    exact .running (.ite (.respond _ _ _) (.raise _ .mode))
  | rcCheck =>
    dsimp only [exec, execRcCheck]
    exact .inMode fun _ => .ite (.raise _ .addr) (.ite (.raiseRcError _) (.ite (.raiseRcError _) (.respond _ _ _)))
  | bufRd addr =>
    dsimp only [exec, execBufRd]
    exact .running (.ite (.raise _ .addr) (.respond _ _ _))
  | bufWr addr byte =>
    dsimp only [exec, execBufWr]
    exact .running (.ite (.raise _ .mode) (.ite (.raise _ .addr) (.respond _ _ _)))
  | cdfRd index =>
    dsimp only [exec, execCdfRd]
    exact .running (.ite (.raise _ .addr) (.respond _ _ _))
  | srClear ctx =>
    dsimp only [exec, execSrClear]
    exact .onContext fun _ => .respond _ _ _
  | srCopy dst src =>
    dsimp only [exec, execSrCopy]
    exact .onContext fun _ => .ite (.raise _ .ctx) (.respond _ _ _)
  | srRd | srPeek | srPoke =>
    dsimp only [exec, execSrRd, execSrPeek, execSrPoke]
    refine .onContext fun _ => ?_
    split
    · exact .raise _ .addr
    · exact .respond _ _ _
  | srWr ctx reg value =>
    dsimp only [exec, execSrWr]
    refine .onContext fun _ => ?_
    split
    · exact .raise _ .addr
    · split
      · exact .raise _ .ro
      · exact .respond _ _ _
  | srPredict ctx x =>
    dsimp only [exec, execSrPredict]
    exact .onContext fun _ => .ite (.raise _ .seq) (.ite (.raise _ .order) (.ite (.raise _ .order)
      (.ite (.raise _ .lag) (.respond _ _ _))))
  | srCommit ctx q =>
    dsimp only [exec, execSrCommit]
    exact .onContext fun _ => .ite (.respond _ _ _) (.raise _ .seq)

/-! ### A blocked carry does not happen -/

/-- Bytes FF are the greatest number of their length. -/
theorem bytesBig_of_ff {f : Nat → Byte} {n : Nat} (h : ∀ j, j < n → f j = 0xFF) : bytesBig f n + 1 = 256 ^ n := by
  induction n with
  | zero => rfl
  | succ n ih =>
    have hbelow := ih fun j hj => h j (by omega)
    have hbyte : (f n).toNat = 255 := by rw [h n (by omega)]; rfl
    rw [bytesBig, hbyte, pow_succ]
    omega

section

variable {s : State}

/-- Behind bytes FF only, the coding interval ends within `BASE`'s own 32 bits. -/
theorem base_add_range_le (hinterval : s.EncoderInterval) (hm : s.mode = .enc) (hblocked : s.carryBlocked = true) :
    s.base.toNat + s.range.toNat * 2 ^ 16 ≤ 0xFFFF * 2 ^ 16 := by
  have hbytes := bytesBig_of_ff (s.carryBlocked_iff.mp hblocked)
  have hle := hinterval hm
  rw [← hbytes, State.codedLow] at hle
  omega

theorem not_encodeCarries_of_blocked (hinterval : s.EncoderInterval) (hm : s.mode = .enc)
    (hblocked : s.carryBlocked = true) (low : Word16) : s.encodeCarries low = false := by
  have hle := base_add_range_le hinterval hm hblocked
  have hlow : s.range.toNat * low.toNat ≤ s.range.toNat * 2 ^ 16 := Nat.mul_le_mul_left _ low.isLt.le
  exact decide_eq_false (by omega)

theorem not_wrapCarries_of_blocked (hinterval : s.EncoderInterval) (hm : s.mode = .enc)
    (hblocked : s.carryBlocked = true) {b : Nat} (hb : lengthTerm s.range.toNat b) : s.wrapCarries b = false := by
  have hle := base_add_range_le hinterval hm hblocked
  obtain ⟨h2, h10, hrange, -⟩ := hb
  refine decide_eq_false ?_
  unfold roundedUp
  interval_cases b <;> omega

end

/-- A running block answers UF_CARRY only in the mode of an encode session. -/
theorem mode_enc_of_carry {i : Instr} {s t : State} (h : exec i s = .next t) (hr : t.resp = some (faultWord 11))
    (hh : s.halt = false) (hi : legalModes i = [.enc]) : s.mode = .enc := by
  by_contra hm
  have hillegal : s.mode ∉ legalModes i := by simpa [hi] using hm
  rw [(exec_answers h).eq_faulted_of_illegal hh hillegal] at hr
  exact absurd (Option.some.inj hr) (by decide)

/-- Settles O21: a carry needs a byte to go to, and the coding interval has one. -/
theorem carryNeverPassesTheStart : Obligations.CarryNeverPassesTheStart := by
  intro i s t hinv hinterval h hr
  obtain ⟨base, nsym, sym, rfl⟩ | rfl := exec_carryFaultOnlyIf i s t h hr
  · obtain ⟨hh, hcarry, hblocked⟩ := rcEncode_carryFaultOnlyIf s base nsym sym t h hr
    have hm := mode_enc_of_carry h hr hh rfl
    rw [not_encodeCarries_of_blocked hinterval hm hblocked] at hcarry
    cases hcarry
  · have hh : s.halt = false := by
      by_contra hhalt
      rw [exec_of_halted (by simpa using hhalt) (by simp) (by simp)] at h
      cases h
      exact absurd (Option.some.inj hr) (by decide)
    have hm := mode_enc_of_carry h hr hh rfl
    obtain ⟨b, hb⟩ := exists_lengthTerm (hinv.rangeGe (by simp [hm, RcMode.inSession])) s.range.isLt
    obtain ⟨-, hcarry, hblocked⟩ := rcEncWrapup_carryFaultOnlyIf hb t h hr
    rw [not_wrapCarries_of_blocked hinterval hm hblocked hb] at hcarry
    cases hcarry

end Sys2Proof.Machine

/-! ## The schedule of bytes (R106, R115) -/

namespace Sys2Proof.Machine

open Sys2Proof.Claims

section

variable {s u : State} {base nsym : Word16} {r1 : BitVec 20} {r0 : Word32}

/-- What an RC_DECODE that completes leaves, and the symbol it answers (R113). -/
theorem Completes.rcDecode_eq {hint : Word16} (h : Completes s (.rcDecode base nsym hint) u r1 r0) :
    ∃ sym, sym < nsym.toNat ∧ r1 = 0 ∧ r0 = BitVec.ofNat 32 sym ∧
      (s.params.cdf (base.toNat + sym)).toNat < (s.params.cdf (base.toNat + sym + 1)).toNat ∧
      u = s.decoded (s.params.cdf (base.toNat + sym)) (s.params.cdf (base.toNat + sym + 1)) := by
  cases h with
  | @rcDecode _ _ _ _ _ _ _ sym _ _ _ _ _ _ hfind hlow hhigh hbn hn _ =>
    subst hlow hhigh hbn hn
    obtain ⟨hsym, -, -⟩ := findSymbol_some _ _ _ _ hfind
    rw [State.fst_renorm_width]
    exact ⟨sym, hsym, rfl, rfl, cdf_lt_of_findSymbol hfind, rfl⟩

/-- A decoded symbol is a word of 16 bits. -/
theorem symbol_toNat {sym : Nat} (h : sym < nsym.toNat) : (BitVec.ofNat 32 sym).toNat = sym := by
  have hlt := nsym.isLt
  rw [BitVec.toNat_ofNat, Nat.mod_eq_of_lt (by omega)]

end

theorem okWord_zero_inj {v w : Word32} : okWord 0 v.toNat = okWord 0 w.toNat ↔ v = w := by
  refine ⟨fun h => BitVec.eq_of_toNat_eq ?_, fun h => h ▸ rfl⟩
  rw [← r0Of_okWord_zero v, h, r0Of_okWord_zero]

/-- An RC_ENCODE that answers OK. -/
theorem exec_rcEncode_ok {s t : State} {base nsym sym : Word16} {r : Word64}
    (h : exec (.rcEncode base nsym sym) s = .next t) (hr : t.resp = some r) (hok : classOf r = 0) :
    t = answered (s.encoded (s.params.cdf (base.toNat + sym.toNat)) (s.params.cdf (base.toNat + sym.toNat + 1))) r := by
  obtain ⟨u, r1, r0, hc, rfl⟩ | ⟨k, x, r0, -, hs, -⟩ := (exec_answers h).of_classOf_ok hr hok
  · obtain rfl := Option.some.inj hr
    rw [hc.rcEncode_eq.1]
  · cases hs

/-- An RC_DECODE that answers a symbol. -/
theorem exec_rcDecode_ok {s t : State} {base nsym hint sym : Word16}
    (h : exec (.rcDecode base nsym hint) s = .next t) (hr : t.resp = some (okWord 0 sym.toNat)) :
    t = answered (s.decoded (s.params.cdf (base.toNat + sym.toNat)) (s.params.cdf (base.toNat + sym.toNat + 1)))
      (okWord 0 sym.toNat) := by
  have hword : (sym.setWidth 32).toNat = sym.toNat := BitVec.toNat_setWidth_of_le (by decide)
  rw [← hword] at hr ⊢
  obtain ⟨u, r1, r0, hc, rfl⟩ | ⟨k, x, r0, -, hs, -⟩ :=
    (exec_answers h).of_classOf_ok hr (classOf_okWord_zero _)
  · obtain ⟨sym', hsym, rfl, rfl, -, rfl⟩ := hc.rcDecode_eq
    have heq : BitVec.ofNat 32 sym' = sym.setWidth 32 := okWord_zero_inj.mp (Option.some.inj hr)
    obtain rfl : sym' = sym.toNat := by rw [← symbol_toNat hsym, heq, hword]
    rw [heq]
    rfl
  · cases hs

/-- Settles O38: both sides renormalise the same width product. -/
theorem decoderKeepsTheEncodersSchedule : Obligations.DecoderKeepsTheEncodersSchedule := by
  intro e d e' d' base nsym sym hint hparams hrange hix he hre hd hrd
  rw [exec_rcEncode_ok he hre (by decide), exec_rcDecode_ok hd hrd, ← hparams]
  have hwidth (low high : Word16) : e.widthProduct low high = d.widthProduct low high := by
    rw [State.widthProduct, State.widthProduct, hrange]
  simp only [answered_range, answered_ix, State.encoded, State.decoded, State.withCoder_range, State.withCoder_ix,
    State.movedFor, hwidth, hrange, hix, and_self]

/-! ### The bits of a session never decrease (R115) -/

section

variable {s t : State}

/-- RC_GET_LENGTH in a session of a good state answers `8 · IX + b`. -/
theorem r0Of_getLength {r : Word64} (hh : s.halt = false) (hm : s.mode.inSession = true) {b : Nat}
    (hb : lengthTerm s.range.toNat b) (h : exec .rcGetLength s = .next t) (hr : t.resp = some r) :
    r0Of r = 8 * s.ix.toNat + b := by
  rw [exec_rcGetLength hh, if_pos hm] at h
  cases h
  obtain rfl := Option.some.inj hr
  rw [r0Of_okWord, State.rcBits_toNat hb]

/-- `t` has moved the coder on from `s` by `n` bytes, or not at all. -/
def CoderMoved (s t : State) : Prop :=
  t.mode = s.mode ∧ ∃ n, t.ix.toNat = s.ix.toNat + n ∧ t.range.toNat ≤ s.range.toNat * 2 ^ (8 * n)

theorem CoderMoved.of_same (hm : t.mode = s.mode) (hix : t.ix = s.ix) (hrange : t.range = s.range) :
    CoderMoved s t :=
  ⟨hm, 0, congrArg BitVec.toNat hix, by rw [hrange]; exact Nat.le_mul_of_pos_right _ (by decide)⟩

/-- The range after coding a symbol, against the range before (R106). -/
theorem newRange_width_le (range : Nat) {low high : Word16} :
    newRange (range * (high.toNat - low.toNat)) ≤
      range * 2 ^ (8 * moved (range * (high.toNat - low.toNat))) := by
  have hhigh := high.isLt
  have hwidth : range * (high.toNat - low.toNat) ≤ range * 2 ^ 16 := Nat.mul_le_mul_left _ (by omega)
  have hle := newRange_le (range * (high.toNat - low.toNat))
  rw [pow_mul]
  refine Nat.le_of_mul_le_mul_right (c := 2 ^ 16) ?_ (by decide)
  calc _ ≤ _ := hle
    _ ≤ range * 2 ^ 16 * 256 ^ moved (range * (high.toNat - low.toNat)) := Nat.mul_le_mul_right _ hwidth
    _ = _ := by ring

theorem coderMoved_of_renorm {low high : Word16} (hm : t.mode = s.mode)
    (hrange : t.range = (renorm (s.widthProduct low high)).2)
    (hix : t.ix = BitVec.ofNat 16 (s.ix.toNat + (renorm (s.widthProduct low high)).1))
    (hlen : s.ix.toNat + (renorm (s.widthProduct low high)).1 ≤ s.len.toNat) : CoderMoved s t := by
  refine ⟨hm, _, by rw [hix, toNat_ofNat_of_le_len hlen], ?_⟩
  rw [hrange, snd_renorm_toNat, fst_renorm, widthProduct_toNat]
  exact newRange_width_le s.range.toNat

theorem Completes.coderMoved {i : Instr} {r1 : BitVec 20} {r0 : Word32} (h : Completes s i t r1 r0)
    (hi : (∃ base nsym sym, i = .rcEncode base nsym sym) ∨ ∃ base nsym hint, i = .rcDecode base nsym hint) :
    CoderMoved s t := by
  obtain ⟨base, nsym, sym, rfl⟩ | ⟨base, nsym, hint, rfl⟩ := hi
  · cases h with
    | rcEncode _ _ _ _ _ _ _ _ _ _ _ _ hn hlen => subst hn; exact coderMoved_of_renorm rfl rfl rfl hlen
  · cases h with
    | rcDecode _ _ _ _ _ _ _ _ _ _ hn hlen => subst hn; exact coderMoved_of_renorm rfl rfl rfl hlen

/-- Coding a symbol, where it does not halt the block, moves the coder on or leaves it. -/
theorem Answers.coderMoved {i : Instr} (h : Answers i s t)
    (hi : (∃ base nsym sym, i = .rcEncode base nsym sym) ∨ ∃ base nsym hint, i = .rcDecode base nsym hint)
    (hh : s.halt = false) (ht : t.halt = false) : CoderMoved s t := by
  cases h with
  | fault => rw [usageFaulted_of_running hh] at ht; cases ht
  | sticky | raised => exact .of_same rfl rfl rfl
  | encTooLong len heq | decTooLong len heq => subst heq; simp at hi
  | completes u r1 r0 hc => exact hc.coderMoved hi
  | stores k x r0 _ _ hs => obtain ⟨_, _, _, rfl⟩ | ⟨_, _, _, rfl⟩ := hi <;> cases hs

/-- The table of R115 loses at most the bits of the bytes moved. -/
theorem lengthTerm_mono {range range' b b' n : Nat} (hb : lengthTerm range b) (hb' : lengthTerm range' b')
    (hle : range' ≤ range * 2 ^ (8 * n)) : b ≤ 8 * n + b' := by
  obtain ⟨h2, h10, -, hhigh⟩ := hb
  obtain ⟨h2', h10', hlow', -⟩ := hb'
  have hlt : 2 ^ (17 - b') < 2 ^ (18 - b + 8 * n) := by
    rw [pow_add]
    exact hlow'.trans_le (hle.trans (Nat.mul_le_mul_right _ hhigh))
  have hexp := (Nat.pow_lt_pow_iff_right (by decide)).mp hlt
  omega

/-- Settles O39: `8 · IX` gains what the second term of the bits can lose. -/
theorem bitsNeverDecrease : Obligations.BitsNeverDecrease := by
  intro i s a t b r r' hinv hm hi ha hr h ht hb hr'
  have hh : s.halt = false := by
    by_contra hhalt
    obtain ⟨_, _, _, rfl⟩ | ⟨_, _, _, rfl⟩ := hi <;>
      rw [exec_of_halted (by simpa using hhalt) (by simp) (by simp)] at h <;> cases h <;> exact hhalt ht
  obtain ⟨hmode, n, hix, hrange⟩ := (exec_answers h).coderMoved hi hh ht
  have hmt : t.mode.inSession = true := by rw [hmode]; exact hm
  obtain ⟨k, hk⟩ := exists_lengthTerm (hinv.rangeGe hm) s.range.isLt
  obtain ⟨k', hk'⟩ := exists_lengthTerm ((exec_inv hinv h).rangeGe hmt) t.range.isLt
  have hbits := lengthTerm_mono hk hk' hrange
  rw [r0Of_getLength hh hm hk ha hr, r0Of_getLength ht hmt hk' hb hr', hix]
  omega

end

end Sys2Proof.Machine

/-! ## Reading commands (20_memory.md section 3) -/

namespace Sys2Proof.Machine

open Sys2Proof.Claims

/-- The commands that only read. -/
def Reads (i : Instr) : Prop :=
  (∃ a, i = .bufRd a) ∨ (∃ k, i = .cdfRd k) ∨ (∃ c r, i = .srRd c r) ∨ (∃ c r k, i = .srPeek c r k) ∨
    (∃ k, i = .csrRd k) ∨ i = .rcGetLength

section

variable {i : Instr} {s t u : State} {r1 : BitVec 20} {r0 : Word32} {k : Nat} {x : SrContext}

theorem Reads.eq_of_completes (hi : Reads i) (h : Completes s i u r1 r0) : u = s := by
  cases h with
  | nop | csrRd | rcGetLength | rcCheck | bufRd | cdfRd | srRd | srPeek => rfl
  | rcEncInit | rcDecInit | rcEncode | rcDecode | rcEncWrapup | bufWr => simp [Reads] at hi

theorem Reads.not_stores (hi : Reads i) (h : Stores s i k x r0) : False := by
  cases h <;> simp [Reads] at hi

/-- No reading command belongs to one mode only. -/
theorem Reads.legalModes_ne (hi : Reads i) (m : RcMode) : legalModes i ≠ [m] := by
  obtain ⟨_, rfl⟩ | ⟨_, rfl⟩ | ⟨_, _, rfl⟩ | ⟨_, _, _, rfl⟩ | ⟨_, rfl⟩ | rfl := hi <;> exact fun h => by cases h

/-- A reading command that does not halt a running block only answers. -/
theorem Reads.answered (hi : Reads i) (h : Answers i s t) (hh : s.halt = false) (ht : t.halt = false) :
    ∃ r, t = answered s r := by
  cases h with
  | fault => rw [usageFaulted_of_running hh] at ht; cases ht
  | sticky _ hl | raised _ _ hl => exact absurd hl (hi.legalModes_ne _)
  | encTooLong _ heq | decTooLong _ heq => subst heq; simp [Reads] at hi
  | completes u r1 r0 hc => rw [hi.eq_of_completes hc]; exact ⟨_, rfl⟩
  | stores k x r0 _ _ hs => exact (hi.not_stores hs).elim

end

/-- Settles O17: what is neither an answer of a halted block nor a usage fault completes, and changes nothing. -/
theorem readsHaveNoSideEffects : Obligations.ReadsHaveNoSideEffects := by
  intro i s t hi h
  obtain ⟨t', r, ht', hr, -⟩ := exec_encodingFaultOnlyIf i s
  obtain rfl : t' = t := by simpa [h, eq_comm] using ht'
  obtain ⟨-, hfaulted, hhalted⟩ := usageFaultIsPrecise s t' (encode i) r ((presentWord_encode i s).trans h) hr
  cases hh : s.halt with
  | true => exact .inl ⟨r, (hhalted hh).1⟩
  | false =>
    cases ht : t'.halt with
    | true => exact .inr ⟨rfl, hfaulted hh ht⟩
    | false => exact .inl (Reads.answered hi (exec_answers h) hh ht)

end Sys2Proof.Machine

/-! ## What a command does not read

A change `g` of the state that a command does not see is still there after it, and the command does the same. -/

namespace Sys2Proof.Machine

open Sys2Proof.Claims

/-- The change `g` touches nothing that the halt check, a usage fault or a response reads or writes. -/
structure Unread (g : State → State) : Prop where
  params : ∀ s, (g s).params = s.params
  halt : ∀ s, (g s).halt = s.halt
  withResp : ∀ s w, (g s).withResp w = g (s.withResp w)
  withFault : ∀ s f w, (g s).withFault f w = g (s.withFault f w)

/-- Nor what the mode check and the gate of an RC command read, or an RC error writes. -/
structure UnreadByGate (g : State → State) : Prop extends Unread g where
  mode : ∀ s, (g s).mode = s.mode
  err : ∀ s, (g s).err = s.err
  errCode : ∀ s, (g s).errCode = s.errCode
  withErr : ∀ s e, (g s).withErr e = g (s.withErr e)

/-- Nor what decoding a symbol reads and writes, but for the payload. -/
structure UnreadByDecoder (g : State → State) : Prop extends UnreadByGate g where
  base : ∀ s, (g s).base = s.base
  range : ∀ s, (g s).range = s.range
  ix : ∀ s, (g s).ix = s.ix
  len : ∀ s, (g s).len = s.len
  withCoder : ∀ s b r i, (g s).withCoder b r i = g (s.withCoder b r i)

/-- The outcome `o'` is the outcome `o` with `g` applied to the next state. -/
def Follows (g : State → State) (o o' : Out) : Prop := ∃ t, o = .next t ∧ o' = .next (g t)

namespace Follows

variable {g : State → State} {s t : State}

theorem next {o o' : Out} (h : Follows g o o') (ho : o = .next t) : o' = .next (g t) := by
  obtain ⟨u, hu, hu'⟩ := h
  cases hu.symm.trans ho
  exact hu'

/-- A command leaves what it does not read as it is. -/
theorem fixed {i : Instr} (h : Follows g (exec i s) (exec i (g s))) (hs : g s = s) (ht : exec i s = .next t) :
    g t = t := by
  have hg := h.next ht
  rw [hs, ht] at hg
  exact (Host.Outcome.next.inj hg).symm

theorem ite {p : Prop} [Decidable p] {a a' b b' : Out} (ha : Follows g a a') (hb : Follows g b b') :
    Follows g (if p then a else b) (if p then a' else b') := by
  split
  · exact ha
  · exact hb

section

variable (hg : Unread g)
include hg

theorem respond (st : Status) (code : BitVec 8) (r1 : BitVec 20) (r0 : Word32) (u : State) :
    Follows g (Machine.respond st code r1 r0 u) (Machine.respond st code r1 r0 (g u)) :=
  ⟨_, rfl, congrArg _ (hg.withResp u _)⟩

theorem respondOk (r0 : Word32) (u : State) : Follows g (Machine.respondOk r0 u) (Machine.respondOk r0 (g u)) :=
  respond hg _ _ _ _ u

theorem raise (word : Word64) (f : UsageFault) :
    Follows g (raiseUsageFault word f s) (raiseUsageFault word f (g s)) := by
  have hrecorded : (if (g s).halt then g s else (g s).withFault f word) =
      g (if s.halt then s else s.withFault f word) := by
    rw [hg.halt, hg.withFault]
    split <;> rfl
  rw [raiseUsageFault, raiseUsageFault, hrecorded]
  exact respond hg _ _ _ _ _

theorem running {word : Word64} {k k' : Out} (hk : Follows g k k') :
    Follows g (if s.halt then raiseUsageFault word .halted s else k)
      (if (g s).halt then raiseUsageFault word .halted (g s) else k') := by
  rw [hg.halt]
  exact .ite (raise hg word .halted) hk

theorem onContext {word : Word64} {c : Nat} {k k' : SrContext → Out}
    (hk : Follows g (k (s.ctx c)) (k' ((g s).ctx c))) :
    Follows g (Machine.onContext word c s k) (Machine.onContext word c (g s) k') := by
  unfold Machine.onContext
  refine running hg ?_
  rw [hg.params]
  exact .ite (raise hg word .ctx) hk

end

section

variable (hg : UnreadByGate g)
include hg

theorem raiseRcError (e : RcError) : Follows g (Machine.raiseRcError e s) (Machine.raiseRcError e (g s)) := by
  rw [Machine.raiseRcError, Machine.raiseRcError, hg.withErr]
  exact respond hg.toUnread _ _ _ _ _

theorem inMode {word : Word64} {m : RcMode} {k k' : Out} (hk : Follows g k k') :
    Follows g (Machine.inMode word m s k) (Machine.inMode word m (g s) k') := by
  unfold Machine.inMode refuseErr
  refine running hg.toUnread ?_
  rw [hg.mode, hg.err, hg.errCode]
  exact .ite (raise hg.toUnread word .mode) (.ite (respond hg.toUnread _ _ _ _ s) hk)

end

end Follows

/-! ### RC_DECODE and the payload (R114) -/

/-- Pulling reads the payload from position `4 + IX` only. -/
theorem pullBytes_congr {s t : State} {n ix : Nat} (bn : Word32)
    (h : ∀ p, 4 + ix ≤ p → t.payloadByte p = s.payloadByte p) : pullBytes t n bn ix = pullBytes s n bn ix := by
  induction n generalizing bn ix with
  | zero => rfl
  | succ n ih => rw [pullBytes, pullBytes, h _ le_rfl, ih _ fun p hp => h p (by omega)]

/-- RC_DECODE does the same after a change that leaves the payload from position `4 + IX`. -/
theorem exec_rcDecode_follows {g : State → State} (hg : UnreadByDecoder g) {s : State}
    (hpayload : ∀ p, 4 + s.ix.toNat ≤ p → (g s).payloadByte p = s.payloadByte p) (base nsym hint : Word16) :
    Follows g (exec (.rcDecode base nsym hint) s) (exec (.rcDecode base nsym hint) (g s)) := by
  have hu := hg.toUnread
  have htimes (low : Word16) : (g s).rangeTimes low = s.rangeTimes low := by
    rw [State.rangeTimes, hg.range, State.rangeTimes]
  have hwidth (low high : Word16) : (g s).widthProduct low high = s.widthProduct low high := by
    rw [State.widthProduct, hg.range, State.widthProduct]
  have hfind : (g s).findSymbol base.toNat nsym.toNat = s.findSymbol base.toNat nsym.toNat := by
    simp only [State.findSymbol, htimes, hg.params, hg.base]
  have hout : (g s).lenOutside = s.lenOutside := by simp only [State.lenOutside, hg.len, hg.params]
  dsimp only [exec, execRcDecode]
  rw [hg.params, hout, hfind]
  refine .inMode hg.toUnreadByGate (.ite (.raise hu _ _) (.ite (.raise hu _ _) ?_))
  split
  · exact .raiseRcError hg.toUnreadByGate _
  · dsimp only [decodeSymbol]
    rw [hg.params, hg.base, hg.ix, hg.len, htimes, hwidth, pullBytes_congr _ hpayload, hg.withCoder]
    exact .ite (.raiseRcError hg.toUnreadByGate _) (.respondOk hu _ _)

/-- `BUF` replaced. -/
theorem withBuf_unread (buf : Memory) : UnreadByDecoder (State.withBuf · buf) where
  params _ := rfl
  halt _ := rfl
  withResp _ _ := rfl
  withFault _ _ _ := rfl
  mode _ := rfl
  err _ := rfl
  errCode _ := rfl
  withErr _ _ := rfl
  base _ := rfl
  range _ := rfl
  ix _ := rfl
  len _ := rfl
  withCoder _ _ _ _ := rfl

/-- Settles O40: the bytes pulled are those from position `4 + IX` below `LEN`. -/
theorem payloadIsReadLazily : Obligations.PayloadIsReadLazily := by
  intro s t buf base nsym hint hbuf h
  refine (exec_rcDecode_follows (withBuf_unread buf) (fun p hp => ?_) base nsym hint).next h
  by_cases hlt : p < s.len.toNat
  · exact (if_pos hlt).trans ((hbuf p hp hlt).trans (if_pos hlt).symm)
  · exact (if_neg hlt).trans (if_neg hlt).symm

/-! ### RC commands and the SR contexts -/

/-- The state with other contexts. -/
def State.withSr (sr : List SrContext) (s : State) : State := { s with sr := sr }

theorem withSr_unread (sr : List SrContext) : UnreadByDecoder (State.withSr sr) where
  params _ := rfl
  halt _ := rfl
  withResp _ _ := rfl
  withFault _ _ _ := rfl
  mode _ := rfl
  err _ := rfl
  errCode _ := rfl
  withErr _ _ := rfl
  base _ := rfl
  range _ := rfl
  ix _ := rfl
  len _ := rfl
  withCoder _ _ _ _ := rfl

/-- No command but the SR commands reads a context. -/
theorem exec_withSr {i : Instr} (hi : isSr i = false) (sr : List SrContext) (s : State) :
    Follows (State.withSr sr) (exec i s) (exec i (s.withSr sr)) := by
  have hg := (withSr_unread sr).toUnreadByGate
  have hu := hg.toUnread
  cases i with
  | srClear | srCopy | srRd | srWr | srPeek | srPoke | srPredict | srCommit => cases hi
  | nop => exact .respondOk hu 0 s
  | csrRd csr =>
    dsimp only [exec, execCsrRd]
    split
    · exact .raise hu _ _
    · exact .respondOk hu _ s
  | rcEncInit len =>
    exact .running hu (.ite (.raiseRcError hg (s := s.withSession .enc 0 0) _)
      (.respondOk hu 0 (s.withSession .enc 0 len).withoutErr))
  | rcDecInit len =>
    exact .running hu (.ite (.raiseRcError hg (s := s.withSession .dec 0 0) _)
      (.respondOk hu 0 (s.withSession .dec (s.withSession .dec 0 len).seedBase len).withoutErr))
  | rcEncode base nsym sym =>
    exact .inMode hg (.ite (.raise hu _ _) (.ite (.raise hu _ _) (.ite (.raise hu _ _)
      (.ite (.raiseRcError hg _) (.ite (.raise hu _ _) ⟨_, rfl, rfl⟩)))))
  | rcDecode base nsym hint =>
    exact exec_rcDecode_follows (withSr_unread sr) (fun _ _ => rfl) base nsym hint
  | rcGetLength => exact .running hu (.ite (.respond hu _ _ _ _ s) (.raise hu _ _))
  | rcEncWrapup =>
    exact .inMode hg (.ite (.raise hu _ _) (.ite (.raiseRcError hg _) (.ite (.raise hu _ _) ⟨_, rfl, rfl⟩)))
  | rcCheck =>
    exact .inMode hg (.ite (.raise hu _ _) (.ite (.raiseRcError hg _) (.ite (.raiseRcError hg _)
      (.respondOk hu 0 s))))
  | bufRd addr => exact .running hu (.ite (.raise hu _ _) (.respondOk hu _ s))
  | bufWr addr byte =>
    exact .running hu (.ite (.raise hu _ _) (.ite (.raise hu _ _)
      (.respondOk hu 0 (s.withBuf (Memory.write addr.toNat byte s.buf)))))
  | cdfRd index => exact .running hu (.ite (.raise hu _ _) (.respondOk hu _ s))

/-- Those commands leave every context. -/
theorem exec_sr_eq {i : Instr} {s t : State} (hi : isSr i = false) (h : exec i s = .next t) : t.sr = s.sr :=
  (congrArg State.sr ((exec_withSr hi s.sr s).fixed rfl h)).symm

/-! ### SR commands and the RC unit -/

/-- The state with other RC registers and another `BUF`. -/
def State.withRc (base : Word32) (range ix len : Word16) (err : Bool) (errCode : BitVec 4) (mode : RcMode)
    (buf : Memory) (s : State) : State :=
  { s with base := base, range := range, ix := ix, len := len, err := err, errCode := errCode, mode := mode,
           buf := buf }

section

variable {base : Word32} {range ix len : Word16} {err : Bool} {errCode : BitVec 4} {mode : RcMode} {buf : Memory}

theorem withRc_unread : Unread (State.withRc base range ix len err errCode mode buf) where
  params _ := rfl
  halt _ := rfl
  withResp _ _ := rfl
  withFault _ _ _ := rfl

end

/-- An SR command does the same after a change that leaves the contexts it names. -/
theorem exec_sr_follows {g : State → State} (hg : Unread g) {i : Instr} (hi : isSr i = true) {s : State}
    (hctx : ∀ k ∈ names i, (g s).ctx k = s.ctx k)
    (hstore : ∀ k ∈ names i, ∀ x, (g s).withCtx k x = g (s.withCtx k x)) :
    Follows g (exec i s) (exec i (g s)) := by
  cases i with
  | nop | csrRd | rcEncInit | rcDecInit | rcEncode | rcDecode | rcGetLength | rcEncWrapup | rcCheck | bufRd
  | bufWr | cdfRd => cases hi
  | srCopy dst src =>
    dsimp only [exec, execSrCopy]
    rw [hg.params, hctx src.toNat (by simp [names]), hstore dst.toNat (by simp [names])]
    exact .onContext hg (.ite (.raise hg _ _) (.respondOk hg _ _))
  | srClear ctx =>
    dsimp only [exec, execSrClear]
    rw [hg.params, hstore ctx.toNat (by simp [names])]
    exact .onContext hg (.respondOk hg _ _)
  | srRd ctx reg | srPeek ctx ring k =>
    dsimp only [exec, execSrRd, execSrPeek]
    refine .onContext hg ?_
    rw [hg.params, hctx ctx.toNat (by simp [names])]
    split
    · exact .raise hg _ _
    · exact .respondOk hg _ _
  | srWr ctx reg value =>
    dsimp only [exec, execSrWr]
    refine .onContext hg ?_
    simp only [hg.params, hctx ctx.toNat (by simp [names]), hstore ctx.toNat (by simp [names])]
    split
    · exact .raise hg _ _
    · split
      · exact .raise hg _ _
      · exact .respondOk hg _ _
  | srPoke ctx ring k value =>
    dsimp only [exec, execSrPoke]
    refine .onContext hg ?_
    simp only [hg.params, hctx ctx.toNat (by simp [names]), hstore ctx.toNat (by simp [names])]
    split
    · exact .raise hg _ _
    · exact .respondOk hg _ _
  | srPredict ctx x =>
    dsimp only [exec, execSrPredict]
    refine .onContext hg ?_
    rw [hg.params, hctx ctx.toNat (by simp [names]), hstore ctx.toNat (by simp [names])]
    exact .ite (.raise hg _ _) (.ite (.raise hg _ _) (.ite (.raise hg _ _) (.ite (.raise hg _ _)
      (.respondOk hg _ _))))
  | srCommit ctx q =>
    dsimp only [exec, execSrCommit]
    refine .onContext hg ?_
    rw [hg.params, hctx ctx.toNat (by simp [names]), hstore ctx.toNat (by simp [names])]
    exact .ite (.respondOk hg _ _) (.raise hg _ _)

theorem isSr_eq_false_of_isRc {i : Instr} (h : isRc i = true) : isSr i = false := by
  unfold isRc at h
  split at h
  · cases h
  · cases h
  · simpa using h

/-- Settles O16: replacing what the other unit holds is a change that a command does not see. -/
theorem unitsShareNothing : Obligations.UnitsShareNothing := by
  refine fun i s t h => ⟨fun hi => ?_, fun hi => ?_⟩
  · have hsr := isSr_eq_false_of_isRc hi
    exact ⟨exec_sr_eq hsr h, fun sr' => (exec_withSr hsr sr' s).next h⟩
  · have hfollows (b r i' l e ec m bf) :
        Follows (State.withRc b r i' l e ec m bf) (exec i s) (exec i (s.withRc b r i' l e ec m bf)) :=
      exec_sr_follows withRc_unread hi (fun _ _ => rfl) fun _ _ _ => rfl
    have hfixed := (hfollows s.base s.range s.ix s.len s.err s.errCode s.mode s.buf).fixed rfl h
    refine ⟨?_, ?_, ?_, ?_, ?_, ?_, ?_, ?_, fun b r i' l e ec m bf => (hfollows b r i' l e ec m bf).next h⟩ <;>
      rw [← hfixed] <;> rfl

/-! ### One context -/

theorem withCtx_unread (j : Nat) (c : SrContext) : Unread (State.withCtx · j c) where
  params _ := rfl
  halt _ := rfl
  withResp _ _ := rfl
  withFault _ _ _ := rfl

theorem State.withCtx_comm (s : State) {j k : Nat} (c x : SrContext) (h : j ≠ k) :
    (s.withCtx j c).withCtx k x = (s.withCtx k x).withCtx j c := by
  simp only [State.withCtx, List.set_comm _ _ h]

/-- A command stores the first context it names. -/
theorem Stores.names_head {i : Instr} {s : State} {k : Nat} {x : SrContext} {r0 : Word32} (h : Stores s i k x r0) :
    (names i).head? = some k := by
  cases h <;> rfl

/-- A command changes no context but the first it names. -/
theorem exec_getElem?_other {i : Instr} {s t : State} {j : Nat} (h : exec i s = .next t)
    (hj : (names i).head? ≠ some j) : t.sr[j]? = s.sr[j]? := by
  cases exec_answers h with
  | fault => rw [usageFaulted_sr]
  | sticky | raised | encTooLong | decTooLong => rfl
  | completes u r1 r0 hc => rw [answered_sr, hc.sr_eq]
  | stores k x r0 _ _ hs =>
    have hkj : k ≠ j := by
      rintro rfl
      exact hj hs.names_head
    rw [answered_sr, State.withCtx, List.getElem?_set_ne hkj]

theorem exec_withCtx_other {i : Instr} {j : Nat} (hj : j ∉ names i) (c : SrContext) (s : State) :
    Follows (State.withCtx · j c) (exec i s) (exec i (s.withCtx j c)) := by
  have hne {k : Nat} (hk : k ∈ names i) : j ≠ k := fun h => hj (h ▸ hk)
  cases hi : isSr i with
  | true =>
    exact exec_sr_follows (withCtx_unread j c) hi (fun k hk => State.ctx_withCtx_other s j k c (hne hk))
      fun k hk x => State.withCtx_comm s c x (hne hk)
  | false =>
    obtain ⟨t, ht, ht'⟩ := exec_withSr hi (s.sr.set j c) s
    have hset : t.withSr (s.sr.set j c) = t.withCtx j c := by
      simp only [State.withSr, State.withCtx, exec_sr_eq hi ht]
    exact ⟨t, ht, ht'.trans (congrArg _ hset)⟩

/-- Settles O56. -/
theorem contextsAreIndependent : Obligations.ContextsAreIndependent :=
  fun _ s _ _ h => ⟨exec_getElem?_other h, fun hj c => (exec_withCtx_other hj c s).next h⟩

end Sys2Proof.Machine

/-! ## Commands that store a context, in both directions -/

namespace Sys2Proof.Machine

open Sys2Proof.Claims

section

variable {s t : State} {i : Instr} {k : Nat} {x : SrContext} {r0 : Word32}

/-- On a running block a command stores what `Stores` says. -/
theorem exec_of_stores (hh : s.halt = false) (hk : k < s.params.nCtx) (h : Stores s i k x r0) :
    exec i s = .next (answered (s.withCtx k x) (okWord 0 r0.toNat)) := by
  cases h with
  | srClear => exact exec_srClear_runs hh hk
  | srCopy hsrc => exact exec_srCopy_runs hh hk hsrc
  | srWr hr hw => exact exec_srWr_of_some _ hh hk hr hw
  | srPoke hr => exact exec_srPoke_of_some _ hh hk hr
  | srPredict hf => exact exec_srPredict_runs _ hh hk hf
  | srCommit hp => exact exec_srCommit_runs _ hh hk hp

theorem usageFaulted_halt (s : State) (word : Word64) (f : UsageFault) : (usageFaulted s word f).halt = true := by
  cases h : s.halt <;> simp [usageFaulted, h, answered, faulted]

/-- SR commands are legal in every mode. -/
theorem legalModes_of_isSr (hi : isSr i = true) : legalModes i = [.idle, .enc, .dec, .fin] := by
  cases i with
  | srClear | srCopy | srRd | srWr | srPeek | srPoke | srPredict | srCommit => rfl
  | _ => cases hi

/-- An SR command that completes without a fault, other than SR_RD and SR_PEEK, has stored a context. -/
theorem exec_stores_of_running (hi : isSr i = true) (hreads : ∀ u r1 r0, ¬ Completes s i u r1 r0)
    (h : exec i s = .next t) (ht : t.halt = false) :
    s.halt = false ∧ ∃ k x r0, k < s.params.nCtx ∧ Stores s i k x r0 ∧
      t = answered (s.withCtx k x) (okWord 0 r0.toNat) := by
  have hmodes (m : RcMode) : legalModes i ≠ [m] := by
    rw [legalModes_of_isSr hi]
    exact fun h => by cases h
  cases exec_answers h with
  | fault => rw [usageFaulted_halt] at ht; cases ht
  | sticky _ hl | raised _ _ hl => exact absurd hl (hmodes _)
  | encTooLong len heq | decTooLong len heq => subst heq; cases hi
  | completes u r1 r0 hc => exact absurd hc (hreads u r1 r0)
  | stores k x r0 hh hk hs => exact ⟨hh, k, x, r0, hk, hs, rfl⟩

theorem srPredict_running {ctx : BitVec 4} {x : Word32} (h : exec (.srPredict ctx x) s = .next t)
    (ht : t.halt = false) :
    s.halt = false ∧ ctx.toNat < s.params.nCtx ∧ (s.ctx ctx.toNat).predictCheck s.params = none := by
  obtain ⟨hh, k, x, r0, hk, hs, -⟩ := exec_stores_of_running rfl (by rintro _ _ _ ⟨⟩) h ht
  cases hs with
  | srPredict hf => exact ⟨hh, hk, hf⟩

theorem srCommit_running {ctx : BitVec 4} {q : Word32} (h : exec (.srCommit ctx q) s = .next t)
    (ht : t.halt = false) :
    s.halt = false ∧ ctx.toNat < s.params.nCtx ∧ (s.ctx ctx.toNat).pvalid = true := by
  obtain ⟨hh, k, x, r0, hk, hs, -⟩ := exec_stores_of_running rfl (by rintro _ _ _ ⟨⟩) h ht
  cases hs with
  | srCommit hp => exact ⟨hh, hk, hp⟩

end

end Sys2Proof.Machine

/-! ## Unvoiced contexts (41_sr_commands.md section 5, property 3) -/

namespace Sys2Proof.Machine

open Sys2Proof.Claims

/-- A context with other long-term taps, `HARM`, `LAG` and `SLTP`. -/
def SrContext.withLongTerm (c : SrContext) (b : List Word16) (harm : Word32) (lag : Word16) (sltp : List Word32) :
    SrContext :=
  { c with b := b, harm := harm, lag := lag, sltp := sltp }

section

variable {c : SrContext} {b : List Word16} {harm : Word32} {lag : Word16} {sltp : List Word32}

theorem SrContext.longTerms_of_unvoiced (hv : c.voiced = false) : c.termLtp = 0 ∧ c.termNltp = 0 := by
  simp [termLtp, termNltp, hv]

theorem SrContext.withLongTerm_predictCheck (p : Params) (hv : c.voiced = false) :
    (c.withLongTerm b harm lag sltp).predictCheck p = c.predictCheck p := by
  simp [predictCheck, withLongTerm, hv]

theorem SrContext.withLongTerm_residual (p : Params) (x : Word32) (hv : c.voiced = false) :
    (c.withLongTerm b harm lag sltp).residual p x = c.residual p x := by
  obtain ⟨hltp, hnltp⟩ := longTerms_of_unvoiced hv
  obtain ⟨hltp', hnltp'⟩ := longTerms_of_unvoiced (c := c.withLongTerm b harm lag sltp) hv
  have ht : (c.withLongTerm b harm lag sltp).prediction = c.prediction := by
    rw [prediction, hltp', hnltp', prediction, hltp, hnltp]
    rfl
  rw [residual, ht]
  rfl

theorem SrContext.withLongTerm_predicted (p : Params) (x : Word32) (hv : c.voiced = false) :
    (c.withLongTerm b harm lag sltp).predicted p x = (c.predicted p x).withLongTerm b harm lag sltp := by
  obtain ⟨hltp, hnltp⟩ := longTerms_of_unvoiced hv
  obtain ⟨hltp', hnltp'⟩ := longTerms_of_unvoiced (c := c.withLongTerm b harm lag sltp) hv
  rw [predicted, hltp', hnltp', withLongTerm_residual p x hv, predicted, hltp, hnltp]
  rfl

/-- SR_COMMIT reads the latches, and of the rings only what it drops. -/
theorem SrContext.withLongTerm_committed (p : Params) (q : Word32) :
    (c.withLongTerm b harm lag sltp).committed p q =
      (c.committed p q).withLongTerm b harm lag (ringPush p.ringDepth sltp (c.lpcExcitation q <<< 6)) := rfl

end

/-- Settles O55: without a voice both long-term terms are 0, and SR_COMMIT pushes what the latches give. -/
theorem unvoicedIgnoresLongTerm : Obligations.UnvoicedIgnoresLongTerm := by
  intro s t ctx w c c' b harm lag sltp hc hv hlen hlen'
  obtain ⟨hk, -⟩ := List.getElem?_eq_some_iff.mp hc
  have hctx := State.ctx_of_getElem? hc
  have hctx' := State.ctx_withCtx_same s _ (c.withLongTerm b harm lag sltp) hk
  refine ⟨fun h hc' ht => ?_, fun h hc' ht => ?_⟩
  · obtain ⟨hh, hn, hf⟩ := srPredict_running h ht
    rw [exec_srPredict_runs w hh hn hf] at h
    cases h
    obtain rfl : c' = c.predicted s.params w := by simpa [hk, hctx, eq_comm] using hc'
    have hf' : ((s.withCtx ctx.toNat (c.withLongTerm b harm lag sltp)).ctx ctx.toNat).predictCheck s.params =
        none := by
      rw [hctx', SrContext.withLongTerm_predictCheck _ hv, ← hctx, hf]
    refine (exec_srPredict_runs (s := s.withCtx ctx.toNat (c.withLongTerm b harm lag sltp)) w hh hn hf').trans ?_
    rw [hctx', State.withCtx_params, SrContext.withLongTerm_predicted _ _ hv, SrContext.withLongTerm_residual _ _ hv,
      hctx, State.withCtx_withCtx]
    simp only [answered, State.withCtx, List.set_set]
    rfl
  · obtain ⟨hh, hn, hp⟩ := srCommit_running h ht
    rw [exec_srCommit_runs w hh hn hp] at h
    cases h
    obtain rfl : c' = c.committed s.params w := by simpa [hk, hctx, eq_comm] using hc'
    have hp' : ((s.withCtx ctx.toNat (c.withLongTerm b harm lag sltp)).ctx ctx.toNat).pvalid = true := by
      rw [hctx']
      exact hctx ▸ hp
    refine ⟨c.lpcExcitation w <<< 6, ringPush_eq_dropLast _ hlen,
      (exec_srCommit_runs (s := s.withCtx ctx.toNat (c.withLongTerm b harm lag sltp)) w hh hn hp').trans ?_⟩
    rw [hctx', State.withCtx_params, SrContext.withLongTerm_committed, ringPush_eq_dropLast _ hlen', hctx,
      State.withCtx_withCtx]
    simp only [answered, State.withCtx, List.set_set]
    rfl

end Sys2Proof.Machine

/-! ## Decoder replay (41_sr_commands.md section 5, property 2) -/

namespace Sys2Proof.Machine

open Sys2Proof.Claims

/-- A context with another `L_R`. -/
def SrContext.withR (c : SrContext) (v : Word32) : SrContext := { c with lR := v }

/-- `alike` in the terms of the model. -/
theorem alike_iff (k : Nat) (s t : State) :
    alike k s t ↔ k < s.sr.length ∧ ∃ v r, t = { s.withCtx k ((s.ctx k).withR v) with resp := r } := by
  constructor
  · rintro ⟨c, v, r, hc, rfl⟩
    obtain rfl := State.ctx_of_getElem? hc
    exact ⟨(List.getElem?_eq_some_iff.mp hc).1, v, r, rfl⟩
  · rintro ⟨hk, v, r, rfl⟩
    exact ⟨s.ctx k, v, r, State.getElem?_of_lt hk, rfl⟩

/-- SR_WR writes past `L_R`, which it cannot write. -/
theorem SrContext.writeReg_withR {c x : SrContext} {w : Word32} {r : SrReg} (h : c.writeReg w r = some x)
    (v : Word32) : (c.withR v).writeReg w r = some (x.withR v) := by
  cases r <;> cases h <;> rfl

theorem SrContext.withRing_withR (c : SrContext) (r : RingId) (cells : List Word32) (v : Word32) :
    (c.withR v).withRing r cells = (c.withRing r cells).withR v := by
  cases r <;> rfl

theorem SrContext.ring_withR (c : SrContext) (r : RingId) (v : Word32) : (c.withR v).ring r = c.ring r := by
  cases r <;> rfl

section

variable {s t : State} {k : Nat} {x : SrContext} {v : Word32}

/-- Storing contexts that differ in `L_R` in the two states leaves them alike. -/
theorem alike_of_stored (h : alike k s t) (v w w') :
    alike k (answered (s.withCtx k x) w) (answered (t.withCtx k (x.withR v)) w') := by
  obtain ⟨hk, v', r, rfl⟩ := (alike_iff k s t).mp h
  refine (alike_iff ..).mpr ⟨by simpa using hk, v, some w', ?_⟩
  have hctx : (answered (s.withCtx k x) w).ctx k = x := State.ctx_withCtx_same s k x hk
  rw [hctx]
  simp only [answered, State.withCtx, List.set_set]

/-- What one command of a replay stores in the one state, its partner stores in the other but for `L_R`, and where
both commit they answer the same. -/
theorem Stores.replay {ctx : BitVec 4} {i i' : Instr} {r0 : Word32} (hpair : replayPair ctx (i, i'))
    (hparams : t.params = s.params) (hctx : t.ctx ctx.toNat = (s.ctx ctx.toNat).withR v) (h : Stores s i k x r0) :
    k = ctx.toNat ∧ ∃ v' r0', Stores t i' k (x.withR v') r0' ∧ ((∃ q, i = .srCommit ctx q) → r0' = r0) := by
  obtain ⟨y, y', heq⟩ | ⟨q, heq⟩ | ⟨reg, w, heq⟩ | ⟨ring, pos, w, heq⟩ := hpair <;> cases heq
  · cases h with
    | srPredict hf =>
      have hs := Stores.srPredict (x := y') (by rw [hctx, hparams]; exact hf)
      rw [hctx, hparams] at hs
      exact ⟨rfl, _, _, hs, by simp⟩
  · cases h with
    | srCommit hp =>
      have hs := Stores.srCommit (q := q) (by rw [hctx]; exact hp)
      rw [hctx, hparams] at hs
      exact ⟨rfl, v, _, hs, fun _ => rfl⟩
  · cases h with
    | srWr hr hw =>
      have hs := Stores.srWr (hparams ▸ hr) (hctx ▸ SrContext.writeReg_withR hw v)
      exact ⟨rfl, v, _, hs, fun _ => rfl⟩
  · cases h with
    | srPoke hr =>
      have hs := Stores.srPoke (s := t) (ctx := ctx) (v := w) (hparams ▸ hr)
      rw [hctx, SrContext.ring_withR, SrContext.withRing_withR] at hs
      exact ⟨rfl, v, _, hs, fun _ => rfl⟩

theorem isSr_of_replayPair {ctx : BitVec 4} {i i' : Instr} (h : replayPair ctx (i, i')) : isSr i = true := by
  obtain ⟨y, y', heq⟩ | ⟨q, heq⟩ | ⟨reg, w, heq⟩ | ⟨ring, pos, w, heq⟩ := h <;> cases heq <;> rfl

theorem not_completes_of_replayPair {ctx : BitVec 4} {i i' : Instr} (h : replayPair ctx (i, i')) (s u : State)
    (r1 : BitVec 20) (r0 : Word32) : ¬ Completes s i u r1 r0 := by
  obtain ⟨y, y', heq⟩ | ⟨q, heq⟩ | ⟨reg, w, heq⟩ | ⟨ring, pos, w, heq⟩ := h <;> cases heq <;> rintro ⟨⟩

/-! ### Runs of commands -/

theorem exec_after (i : Instr) (s : State) : exec i s = .next (after i s) := by
  obtain ⟨t, r, ht, -⟩ := exec_encodingFaultOnlyIf i s
  rw [after, ht]

theorem after_of_exec {i : Instr} (h : exec i s = .next t) : after i s = t := by
  rw [after, h]

/-- No command leaves the halted state. -/
theorem after_halt_of_halted (i : Instr) (h : s.halt = true) : (after i s).halt = true := by
  obtain ⟨r, hr, -⟩ := presentWord_halted_cases h ((presentWord_encode i s).trans (exec_after i s))
  rw [hr]
  exact h

theorem runAll_halt_of_halted (l : List Instr) (h : s.halt = true) : (runAll l s).halt = true := by
  induction l generalizing s with
  | nil => exact h
  | cons i rest ih => exact ih (after_halt_of_halted i h)

/-- A run that ends running was running after its first command. -/
theorem after_halt_of_runAll {i : Instr} {rest : List Instr} (h : (runAll (i :: rest) s).halt = false) :
    (after i s).halt = false := by
  by_contra hhalt
  have hend := runAll_halt_of_halted rest (s := after i s) (by simpa using hhalt)
  exact absurd (hend.symm.trans h) (by decide)

/-- One pair of a replay. -/
theorem alike_after {ctx : BitVec 4} {i i' : Instr} (halike : alike ctx.toNat s t) (hpair : replayPair ctx (i, i'))
    (hrun : (after i s).halt = false) :
    alike ctx.toNat (after i s) (after i' t) ∧ ((∃ q, i = .srCommit ctx q) → (after i s).resp = (after i' t).resp) := by
  obtain ⟨hk, v, r, ht⟩ := (alike_iff _ s t).mp halike
  have hctx : t.ctx ctx.toNat = (s.ctx ctx.toNat).withR v := ht ▸ State.ctx_withCtx_same s _ _ hk
  have hparams : t.params = s.params := ht ▸ rfl
  have hhalt : t.halt = s.halt := ht ▸ rfl
  obtain ⟨hh, k, x, r0, hn, hs, hafter⟩ := exec_stores_of_running (isSr_of_replayPair hpair)
    (not_completes_of_replayPair hpair s) (exec_after i s) hrun
  obtain ⟨rfl, v', r0', hs', hresp⟩ := hs.replay hpair hparams hctx
  have hafter' := after_of_exec (exec_of_stores (hhalt.trans hh) (hparams ▸ hn) hs')
  rw [hafter, hafter']
  exact ⟨alike_of_stored halike v' _ _, fun hcommit => by rw [hresp hcommit]; rfl⟩

end

/-- Settles O58, by induction on the script: the two states stay alike, and SR_COMMIT does not read `L_R`. -/
theorem decoderReplaysTheEncoder : Obligations.DecoderReplaysTheEncoder := by
  intro ctx s t script
  induction script generalizing s t with
  | nil => exact fun halike _ _ => ⟨halike, fun k q hk => by simp at hk⟩
  | cons pair rest ih =>
    intro halike hpairs hrun
    obtain ⟨halike', hresp⟩ := alike_after halike (hpairs pair List.mem_cons_self) (after_halt_of_runAll hrun)
    obtain ⟨hend, hanswers⟩ := ih (after pair.1 s) (after pair.2 t) halike'
      (fun p hp => hpairs p (List.mem_cons_of_mem _ hp)) hrun
    refine ⟨hend, fun k q hk => ?_⟩
    cases k with
    | zero => exact congrArg some (hresp ⟨q, by simpa using hk⟩)
    | succ k => exact hanswers k q (by simpa using hk)

end Sys2Proof.Machine

/-! ## Silence (41_sr_commands.md section 5, property 1) -/

namespace Sys2Proof.Machine

open Sys2Proof.Claims

/-! ### The primitives at zero -/

theorem smulwb_zero (b : Word32) : smulwb 0 b = 0 := by
  simp [smulwb, smul16]

theorem smulwt_zero (b : Word32) : smulwt 0 b = 0 := by
  simp [smulwt, smul16]

theorem clampSym_zero (bound : Nat) : clampSym bound 0 = 0 := by
  rw [clampSym_eq]
  simp [wrap]

/-- Zero negates to zero, under either mask of R133. -/
theorem negateIf_mask_zero {m : Word32} (hm : m = 0 ∨ m = 0xFFFFFFFF) : negateIf m 0 = 0 := by
  obtain rfl | rfl := hm <;> decide

theorem sum32_eq_zero {n : Nat} {f : Nat → Word32} (h : ∀ j, j < n → f j = 0) : sum32 n f = 0 := by
  induction n with
  | zero => rfl
  | succ n ih => rw [sum32_succ, ih fun j hj => h j (by omega), h n (by omega)]; rfl

theorem ringPeek_of_zero {ring : List Word32} (h : ∀ v ∈ ring, v = 0) (k : Nat) : ringPeek ring k = 0 := by
  unfold ringPeek
  rw [List.getD_eq_getElem?_getD]
  cases hk : ring[k - 1]? with
  | none => rfl
  | some v => exact h v (List.mem_of_getElem? hk)

/-- Pushing zero on a full ring of zeros leaves it. -/
theorem ringPush_of_zero {ring : List Word32} {depth : Nat} (h : ∀ v ∈ ring, v = 0) (hlen : ring.length = depth) :
    ringPush depth ring 0 = ring := by
  obtain rfl : ring = List.replicate depth 0 := List.eq_replicate_iff.mpr ⟨hlen, h⟩
  rw [ringPush, ← List.replicate_succ, List.take_replicate, Nat.min_eq_left (Nat.le_succ depth)]

/-! ### One sample -/

/-- An unvoiced context ready for a prediction, with nothing in its histories and latches (the hypotheses of the
property). -/
structure SrContext.Silent (p : Params) (c : SrContext) : Prop where
  pvalid : c.pvalid = false
  accepted : accepted p c
  shaped : c.shaped p = true
  voiced : c.voiced = false
  offset : c.offset = 0
  lfar : c.lfar = 0
  lLpc : c.lLpc = 0
  lLtp : c.lLtp = 0
  lNar : c.lNar = 0
  lNlf : c.lNlf = 0
  lNltp : c.lNltp = 0
  lR : c.lR = 0
  slpc : ∀ v ∈ c.slpc, v = 0
  sltp : ∀ v ∈ c.sltp, v = 0
  sshp : ∀ v ∈ c.sshp, v = 0

/-- What samples of silence move in a context: the seed, the dither mask and the counts of pushes. -/
def SrContext.advanced (c : SrContext) (seed dither curSltp curSshp : Word32) : SrContext :=
  { c with seed := seed, lDither := dither, curSltp := curSltp, curSshp := curSshp }

theorem SrContext.Silent.advanced {p : Params} {c : SrContext} (h : c.Silent p) (seed dither curSltp curSshp : Word32) :
    (c.advanced seed dither curSltp curSshp).Silent p := { h with }

/-- A context after one sample of silence. -/
def SrContext.sampled (p : Params) (c : SrContext) : SrContext :=
  c.advanced (nextSeed p c.seed) (ditherMask (nextSeed p c.seed)) (c.curSltp + 1) (c.curSshp + 1)

section

variable {p : Params} {c : SrContext} (h : c.Silent p)
include h

/-- Every term of the prediction is 0. -/
theorem SrContext.Silent.terms :
    c.termLpc = 0 ∧ c.termLtp = 0 ∧ c.termNar = 0 ∧ c.termNlf = 0 ∧ c.termNltp = 0 := by
  obtain ⟨hltp, hnltp⟩ := longTerms_of_unvoiced h.voiced
  have hslpc := ringPeek_of_zero h.slpc
  have hsum (taps : List Word16) (n : Nat) :
      sum32 n (fun j => smulwb (ringPeek c.slpc (j + 1)) (tapWord taps j)) = 0 :=
    sum32_eq_zero fun j _ => by rw [hslpc, smulwb_zero]
  refine ⟨hsum _ _, hltp, ?_, ?_, hnltp⟩
  · rw [termNar, hsum, h.lfar, smulwb_zero]
    rfl
  · rw [termNlf, ringPeek_of_zero h.sshp, h.lfar, smulwb_zero, smulwt_zero]
    rfl

/-- The residual of silence is 0. -/
theorem SrContext.Silent.residual : c.residual p 0 = 0 := by
  obtain ⟨hlpc, hltp, hnar, hnlf, hnltp⟩ := h.terms
  have ht : (0 : Word32) - c.prediction = 0 := by
    rw [prediction, hlpc, hltp, hnar, hnlf, hnltp]
    rfl
  rw [SrContext.residual, ht, negateIf_mask_zero (ditherMask_cases _), h.offset]
  exact clampSym_zero _

/-- SR_PREDICT of silence moves the seed and the dither mask, and sets `PVALID`. -/
theorem SrContext.Silent.predicted :
    c.predicted p 0 = { c with
      seed := nextSeed p c.seed
      lDither := ditherMask (nextSeed p c.seed)
      pvalid := true } := by
  obtain ⟨hlpc, hltp, hnar, hnlf, hnltp⟩ := h.terms
  simp only [SrContext.predicted, hlpc, hltp, hnar, hnlf, hnltp, h.residual, h.lLpc, h.lLtp, h.lNar, h.lNlf, h.lNltp,
    h.lR]

/-- The excitation of a pulse 0 over zero latches is 0 (R142). -/
theorem SrContext.Silent.lpcExcitation : (c.predicted p 0).lpcExcitation 0 = 0 := by
  have hpulse : (0 : Word32) <<< 10 + (c.predicted p 0).offset = 0 := by
    rw [predicted_offset, h.offset]
    rfl
  have hround : rshiftRound (c.predicted p 0).lLtp 4 = 0 := by
    rw [predicted_lLtp, h.terms.2.1]
    decide
  rw [SrContext.lpcExcitation, excitation, hpulse, predicted_lDither, negateIf_mask_zero (ditherMask_cases _), hround]
  rfl

/-- The sample of silence is 0. -/
theorem SrContext.Silent.reconstructed : (c.predicted p 0).reconstructed 0 = 0 := by
  rw [SrContext.reconstructed, h.lpcExcitation, predicted_lLpc, h.terms.1]
  rfl

/-- SR_COMMIT of silence moves the counts, and clears `PVALID` again. -/
theorem SrContext.Silent.committed : (c.predicted p 0).committed p 0 = c.sampled p := by
  obtain ⟨hslpc, hsltp, hsshp⟩ := rings_of_shaped h.shaped
  have hzero : (0 : Word32) - 0 = 0 := rfl
  have hshift (n : Nat) : (0 : Word32) <<< n = 0 := BitVec.zero_shiftLeft n
  have hseed : (if p.seedFeedback then nextSeed p c.seed + 0 else nextSeed p c.seed) = nextSeed p c.seed := by
    split
    · exact BitVec.add_zero _
    · rfl
  simp only [SrContext.committed, h.reconstructed, h.lpcExcitation]
  simp only [h.predicted, h.lNar, h.lNlf, hzero, hshift, hseed, ringPush_of_zero h.slpc hslpc,
    ringPush_of_zero h.sltp hsltp, ringPush_of_zero h.sshp hsshp, SrContext.sampled,
    SrContext.advanced, h.pvalid, h.lfar]

end

/-! ### A run of silence -/

section

variable {s : State} {ctx : BitVec 4} {c : SrContext}

/-- One sample of silence: both commands answer 0, and the context has advanced once. -/
theorem silent_sample (hh : s.halt = false) (hk : ctx.toNat < s.params.nCtx) (hc : s.sr[ctx.toNat]? = some c)
    (h : c.Silent s.params) :
    (after (.srPredict ctx 0) s).resp = some (okWord 0 0) ∧
      after (.srCommit ctx 0) (after (.srPredict ctx 0) s) =
        answered (s.withCtx ctx.toNat (c.sampled s.params)) (okWord 0 0) := by
  obtain ⟨hlt, -⟩ := List.getElem?_eq_some_iff.mp hc
  have hctx := State.ctx_of_getElem? hc
  have hcheck : (s.ctx ctx.toNat).predictCheck s.params = none := by
    rw [hctx, SrContext.predictCheck_of_accepted h.pvalid h.accepted]
  have hpredict := after_of_exec (exec_srPredict_runs 0 hh hk hcheck)
  rw [hctx] at hpredict
  have hctx' : (after (.srPredict ctx 0) s).ctx ctx.toNat = c.predicted s.params 0 := by
    rw [hpredict]
    exact State.ctx_withCtx_same s _ _ hlt
  have hcommit := after_of_exec (exec_srCommit_runs (s := after (.srPredict ctx 0) s) 0 (by rw [hpredict]; exact hh)
    (by rw [hpredict]; exact hk) (by rw [hctx']; rfl))
  refine ⟨by rw [hpredict, h.residual]; rfl, hcommit.trans ?_⟩
  rw [hctx', h.reconstructed, hpredict, ← h.committed]
  simp only [answered, State.withCtx, List.set_set]
  rfl

/-- After `n` samples of silence. -/
theorem silent_run (n : Nat) (hh : s.halt = false) (hk : ctx.toNat < s.params.nCtx)
    (hc : s.sr[ctx.toNat]? = some c) (h : c.Silent s.params) :
    (∀ r ∈ answers (silence ctx n) s, r = some (okWord 0 0)) ∧
    ∃ d r, runAll (silence ctx n) s =
      { s.withCtx ctx.toNat (c.advanced (seedAfterSilence s.params c.seed n) d
          (c.curSltp + BitVec.ofNat 32 n) (c.curSshp + BitVec.ofNat 32 n)) with resp := r } := by
  obtain ⟨hlt, hget⟩ := List.getElem?_eq_some_iff.mp hc
  induction n generalizing s c with
  | zero =>
    have hset : s.sr.set ctx.toNat c = s.sr := by rw [← hget, List.set_getElem_self]
    refine ⟨fun r hr => by simp [silence, answers] at hr, c.lDither, s.resp, ?_⟩
    simp only [BitVec.add_zero, SrContext.advanced, seedAfterSilence, State.withCtx, hset]
    rfl
  | succ n ih =>
    obtain ⟨hpredict, hcommit⟩ := silent_sample hh hk hc h
    have hlt' : ctx.toNat < (s.withCtx ctx.toNat (c.sampled s.params)).sr.length := by simpa using hlt
    have hget' : (s.withCtx ctx.toNat (c.sampled s.params)).sr[ctx.toNat] = c.sampled s.params := by simp
    obtain ⟨hanswers, d, r, hrun⟩ := @ih (answered (s.withCtx ctx.toNat (c.sampled s.params)) (okWord 0 0))
      (c.sampled s.params) hh hk (List.getElem?_eq_some_iff.mpr ⟨hlt', hget'⟩) (h.advanced _ _ _ _) hlt' hget'
    have hcount (cur : Word32) : cur + 1 + BitVec.ofNat 32 n = cur + BitVec.ofNat 32 (n + 1) := by
      rw [BitVec.add_assoc, Nat.add_comm, BitVec.ofNat_add]
      rfl
    refine ⟨fun a ha => ?_, d, r, ?_⟩
    · simp only [silence, answers, List.mem_cons, hcommit] at ha
      obtain rfl | rfl | ha := ha
      · exact hpredict
      · rfl
      · exact hanswers a ha
    · simp only [silence, runAll, hcommit]
      rw [hrun]
      simp only [answered, State.withCtx, List.set_set, SrContext.sampled, SrContext.advanced, hcount, seedAfterSilence,
        seedAfter_eq]

end

/-- Settles O57. -/
theorem silenceStaysSilent : Obligations.SilenceStaysSilent := by
  intro s ctx c n hh hk hc hp hacc hshaped hv hoffset hlfar hlpc hltp hnar hnlf hnltp hr hslpc hsltp hsshp
  exact silent_run n hh hk hc
    ⟨hp, hacc, hshaped, hv, hoffset, hlfar, hlpc, hltp, hnar, hnlf, hnltp, hr, hslpc, hsltp, hsshp⟩

end Sys2Proof.Machine

/-! ## The round trip (R121)

`V`, the payload read as one number as far as a decoder at some point has read it, lies in the encoder's coding
interval at that point: the wrap-up puts it there, and each symbol's sub-interval lies in the interval before it. So
the decoder, whose `BASE` is `V` less the low end of the interval, finds every symbol. -/

namespace Sys2Proof.Claims

/-- The lower end of the symbol's entry pair. -/
def Coded.low (p : Params) (k : Coded) : Word16 := p.cdf (k.base.toNat + k.sym.toNat)

/-- The upper end of the symbol's entry pair. -/
def Coded.high (p : Params) (k : Coded) : Word16 := p.cdf (k.base.toNat + k.sym.toNat + 1)

/-- The command that encodes the symbol. -/
def Coded.encode (k : Coded) : Instr := .rcEncode k.base k.nsym k.sym

/-- The command that decodes the symbol. -/
def Coded.decode (k : Coded) : Instr := .rcDecode k.base k.nsym k.hint

end Sys2Proof.Claims

namespace Sys2Proof.Machine

open Sys2Proof.Claims

/-! ### Numbers -/

/-- Reading `n` more bytes of a payload. -/
theorem bytesBig_add_bounds (f : Nat → Byte) (m n : Nat) :
    bytesBig f m * 256 ^ n ≤ bytesBig f (m + n) ∧ bytesBig f (m + n) < (bytesBig f m + 1) * 256 ^ n := by
  induction n with
  | zero => simp
  | succ n ih =>
    obtain ⟨hlow, hhigh⟩ := ih
    have hbyte := (f (m + n)).isLt
    rw [← Nat.add_assoc, bytesBig, pow_succ, ← Nat.mul_assoc, ← Nat.mul_assoc]
    omega

/-- A value in the interval after a symbol was in the symbol's sub-interval before it. -/
theorem subinterval_of_interval {low width lowEnd range' scale value value' : Nat}
    (hrange : range' * 2 ^ 16 ≤ width * scale) (hread : value * scale ≤ value' ∧ value' < (value + 1) * scale)
    (hin : (lowEnd + low) * scale ≤ value' ∧ value' < (lowEnd + low) * scale + range' * 2 ^ 16) :
    lowEnd + low ≤ value ∧ value < lowEnd + low + width := by
  obtain ⟨hread1, hread2⟩ := hread
  obtain ⟨hin1, hin2⟩ := hin
  constructor
  · exact Nat.lt_succ_iff.mp (Nat.lt_of_mul_lt_mul_right (hin1.trans_lt hread2))
  · refine Nat.lt_of_mul_lt_mul_right (a := scale) ?_
    rw [Nat.add_mul (lowEnd + low)]
    omega

/-- A number rounded up to the next multiple of `q`, with ones below it, is less than `2 · q` above the number. -/
theorem rounded_bounds {x a scale q value : Nat} (hq : a * scale = q) (hpos : 0 < q)
    (hread : ((x / q + 1) * a + (a - 1)) * scale ≤ value ∧ value < ((x / q + 1) * a + (a - 1) + 1) * scale) :
    x ≤ value ∧ value < x + 2 * q := by
  obtain ⟨hlow, hhigh⟩ := hread
  have ha : 0 < a := Nat.pos_of_mul_pos_right (hq ▸ hpos)
  have hdiv := Nat.div_add_mod x q
  have hmod := Nat.mod_lt x hpos
  have htop : ((x / q + 1) * a + (a - 1) + 1) * scale = q * (x / q) + 2 * q := by
    rw [show (x / q + 1) * a + (a - 1) + 1 = (x / q + 2) * a by rw [Nat.add_mul, Nat.add_mul]; omega, Nat.mul_assoc, hq]
    ring
  have hbottom : q * (x / q) + q ≤ ((x / q + 1) * a + (a - 1)) * scale := by
    calc q * (x / q) + q = (x / q + 1) * a * scale := by rw [Nat.mul_assoc, hq]; ring
      _ ≤ _ := Nat.mul_le_mul_right _ (Nat.le_add_right _ _)
  omega

/-- A payload that ends, as a number, in `k < 8` one bits has them in its last byte. -/
theorem last_byte_ones {f : Nat → Byte} {m k x : Nat} (hk : k < 8)
    (h : bytesBig f (m + 1) = x * 2 ^ k + (2 ^ k - 1)) : (f m).toNat % 2 ^ k = 2 ^ k - 1 := by
  have hpos := Nat.two_pow_pos k
  have hdvd : 2 ^ k ∣ 256 := pow_dvd_pow 2 hk.le
  calc (f m).toNat % 2 ^ k = bytesBig f (m + 1) % 2 ^ k := by
        rw [bytesBig, Nat.add_mod, Nat.mod_eq_zero_of_dvd (hdvd.mul_left _), Nat.zero_add, Nat.mod_mod]
    _ = 2 ^ k - 1 := by
        rw [h, Nat.add_comm, Nat.add_mul_mod_self_right, Nat.mod_eq_of_lt (Nat.sub_lt hpos Nat.one_pos)]

/-! ### The encoder's side -/

/-- What the encoder leaves after a symbol it has answered OK to, on numbers (R105, R106). -/
structure EncodeStep (e e' : State) (k : Coded) : Prop where
  params : e'.params = e.params
  codedLow : e'.codedLow = (e.codedLow + e.range.toNat * (k.low e.params).toNat) *
    256 ^ moved (e.range.toNat * ((k.high e.params).toNat - (k.low e.params).toNat))
  range : e'.range.toNat = newRange (e.range.toNat * ((k.high e.params).toNat - (k.low e.params).toNat))
  ix : e'.ix.toNat = e.ix.toNat + moved (e.range.toNat * ((k.high e.params).toNat - (k.low e.params).toNat))
  width : (k.low e.params).toNat < (k.high e.params).toNat

theorem encodeStep_of_ok {e : State} {k : Coded} (hr : (after k.encode e).resp = some (okWord 0 0)) :
    EncodeStep e (after k.encode e) k := by
  obtain ⟨u, r1, r0, hc, heq⟩ | ⟨_, _, _, -, hs, -⟩ :=
    (exec_answers (exec_after k.encode e)).of_classOf_ok hr (by decide)
  · obtain ⟨hu, hroom⟩ := hc.rcEncode_eq
    rw [heq, hu]
    cases hc with
    | rcEncode _ _ _ _ _ _ hlow hhigh hlt _ _ _ hn hlen =>
      subst hlow hhigh hn
      have hlenLt := e.len.isLt
      rw [State.fst_renorm_width] at hlen
      exact ⟨rfl, State.encoded_codedLow hroom (by omega), State.encoded_range_toNat,
        State.encoded_ix_toNat (by omega), hlt⟩
  · cases hs

/-- `V` for a decoder that stands where the encoder `e` stands: the four bytes of `BASE` are read ahead. -/
def readAhead (f : Nat → Byte) (e : State) : Nat := bytesBig f (4 + e.ix.toNat)

/-- `V` is in the encoder's coding interval. -/
def InInterval (f : Nat → Byte) (e : State) : Prop :=
  e.codedLow ≤ readAhead f e ∧ readAhead f e < e.codedLow + e.range.toNat * 2 ^ 16

section

variable {e e' : State} {k : Coded} {f : Nat → Byte}

/-- `V` is in the sub-interval of the symbol that the encoder encoded. -/
theorem EncodeStep.subinterval (h : EncodeStep e e' k) (hin : InInterval f e') :
    e.codedLow + e.range.toNat * (k.low e.params).toNat ≤ readAhead f e ∧
      readAhead f e < e.codedLow + e.range.toNat * (k.high e.params).toNat := by
  have hwidth := h.width
  have hsum : e.range.toNat * (k.low e.params).toNat +
      e.range.toNat * ((k.high e.params).toNat - (k.low e.params).toNat) =
      e.range.toNat * (k.high e.params).toNat := by
    rw [← Nat.mul_add, Nat.add_sub_cancel' hwidth.le]
  have hread := bytesBig_add_bounds f (4 + e.ix.toNat)
    (moved (e.range.toNat * ((k.high e.params).toNat - (k.low e.params).toNat)))
  have hrange := newRange_le (e.range.toNat * ((k.high e.params).toNat - (k.low e.params).toNat))
  rw [Nat.add_assoc, ← h.ix] at hread
  rw [← h.range] at hrange
  rw [InInterval, h.codedLow] at hin
  have hsub := subinterval_of_interval hrange hread hin
  rw [Nat.add_assoc, hsum] at hsub
  exact hsub

theorem EncodeStep.inInterval (h : EncodeStep e e' k) (hin : InInterval f e') : InInterval f e := by
  obtain ⟨hlow, hhigh⟩ := h.subinterval hin
  have hle : e.range.toNat * (k.high e.params).toNat ≤ e.range.toNat * 2 ^ 16 :=
    Nat.mul_le_mul_left _ (k.high e.params).isLt.le
  exact ⟨by omega, by omega⟩

theorem EncodeStep.range_ge (h : EncodeStep e e' k) (hrange : 256 ≤ e.range.toNat) : 256 ≤ e'.range.toNat := by
  have hprod := renorm_range_ge hrange h.width
  rwa [snd_renorm_toNat, widthProduct_toNat, ← h.range] at hprod

/-- What RC_ENC_WRAPUP leaves where it answers OK (R118). -/
theorem wrapup_ok {b : Nat} {r : Word64} (hb : lengthTerm e.range.toNat b)
    (hr : (after .rcEncWrapup e).resp = some r) (hok : classOf r = 0) :
    (after .rcEncWrapup e).ix.toNat = e.ix.toNat + bytesFor b ∧
      bytesBig (after .rcEncWrapup e).bufByte (e.ix.toNat + bytesFor b) =
        (e.codedLow / 2 ^ (32 - b) + 1) * 2 ^ (8 * bytesFor b - b) + (2 ^ (8 * bytesFor b - b) - 1) := by
  obtain ⟨u, r1, r0, hc, heq⟩ | ⟨_, _, _, -, hs, -⟩ :=
    (exec_answers (exec_after .rcEncWrapup e)).of_classOf_ok hr hok
  · obtain ⟨hu, hroom⟩ := hc.rcEncWrapup_eq hb
    rw [heq, hu]
    refine ⟨State.wrapped_ix_toNat ?_, State.wrapped_bytesBig hb hroom⟩
    cases hc with
    | rcEncWrapup _ _ _ _ hbits hnw _ _ _ hlen _ =>
      rw [State.bitsToStore_eq hb] at hbits
      have hlenLt := e.len.isLt
      rw [hnw, hbits] at hlen
      exact Nat.lt_of_le_of_lt hlen hlenLt
  · cases hs

/-- The wrap-up puts `V` in the final coding interval, whatever follows the payload (R118). -/
theorem inInterval_of_wrapup {b : Nat} {r : Word64} (hb : lengthTerm e.range.toNat b)
    (hr : (after .rcEncWrapup e).resp = some r) (hok : classOf r = 0)
    (hf : ∀ a, a < (after .rcEncWrapup e).ix.toNat → f a = (after .rcEncWrapup e).bufByte a) : InInterval f e := by
  obtain ⟨hix, hbytes⟩ := wrapup_ok hb hr hok
  obtain ⟨h2, h10, hlow, -⟩ := id hb
  rw [hix] at hf
  rw [← bytesBig_congr hf] at hbytes
  have hfor : b ≤ 8 * bytesFor b ∧ bytesFor b ≤ 2 := by unfold bytesFor; split <;> omega
  have hread := bytesBig_add_bounds f (e.ix.toNat + bytesFor b) (4 - bytesFor b)
  rw [show e.ix.toNat + bytesFor b + (4 - bytesFor b) = 4 + e.ix.toNat by omega, hbytes] at hread
  have hscale : 2 ^ (8 * bytesFor b - b) * 256 ^ (4 - bytesFor b) = 2 ^ (32 - b) := by
    rw [show 256 = 2 ^ 8 from rfl, ← pow_mul, ← pow_add]
    congr 1
    omega
  have hrange : 2 * 2 ^ (32 - b) ≤ e.range.toNat * 2 ^ 16 := by
    calc 2 * 2 ^ (32 - b) = 2 ^ (17 - b) * 2 ^ 16 := by rw [← pow_succ', ← pow_add]; congr 1; omega
      _ ≤ e.range.toNat * 2 ^ 16 := Nat.mul_le_mul_right _ hlow.le
  obtain ⟨hle, hlt⟩ := rounded_bounds hscale (Nat.two_pow_pos _) hread
  exact ⟨hle, by unfold readAhead; omega⟩

end

/-! ### A whole encode session -/

/-- The state after the symbols and the wrap-up. -/
def sessionEnd (ks : List Coded) (e : State) : State := runAll (ks.map Coded.encode ++ [.rcEncWrapup]) e

/-- From `e` the encoder answers OK to the symbols and to the wrap-up, which answers `bits`. -/
def EncodesTo (e : State) (ks : List Coded) (bits : Nat) : Prop :=
  answers (ks.map Coded.encode ++ [.rcEncWrapup]) e =
    (ks.map Coded.encode).map (fun _ => some (okWord 0 0)) ++ [some (okWord (sessionEnd ks e).ix.toNat bits)]

theorem encodesTo_nil {e : State} {bits : Nat} (h : EncodesTo e [] bits) :
    (after .rcEncWrapup e).resp = some (okWord (sessionEnd [] e).ix.toNat bits) :=
  (List.cons.inj h).1

theorem encodesTo_cons {e : State} {k : Coded} {ks : List Coded} {bits : Nat} (h : EncodesTo e (k :: ks) bits) :
    (after k.encode e).resp = some (okWord 0 0) ∧ EncodesTo (after k.encode e) ks bits :=
  List.cons.inj h

theorem classOf_wrapup_word (ix : Word16) {bits : Nat} (h : bits < 2 ^ 32) : classOf (okWord ix.toNat bits) = 0 := by
  have hix := ix.isLt
  simp only [classOf, okWord, BitVec.toNat_ofNat]
  omega

/-- `V` is in the coding interval at every point of the session. -/
theorem inInterval_of_encodesTo {bits : Nat} (hbits : bits < 2 ^ 32) {f : Nat → Byte} {ks : List Coded} {e : State}
    (hrange : 256 ≤ e.range.toNat) (h : EncodesTo e ks bits)
    (hf : ∀ a, a < (sessionEnd ks e).ix.toNat → f a = (sessionEnd ks e).bufByte a) :
    InInterval f e ∧ e.ix.toNat ≤ (sessionEnd ks e).ix.toNat := by
  induction ks generalizing e with
  | nil =>
    obtain ⟨b, hb⟩ := exists_lengthTerm hrange e.range.isLt
    have hresp := encodesTo_nil h
    have hok := classOf_wrapup_word (sessionEnd [] e).ix hbits
    have hix := (wrapup_ok hb hresp hok).1
    exact ⟨inInterval_of_wrapup hb hresp hok hf, (Nat.le_add_right _ _).trans_eq hix.symm⟩
  | cons k ks ih =>
    obtain ⟨hresp, htail⟩ := encodesTo_cons h
    have hstep := encodeStep_of_ok hresp
    obtain ⟨hin, hle⟩ := ih (hstep.range_ge hrange) htail hf
    exact ⟨hstep.inInterval hin, (Nat.le_add_right _ _).trans (hstep.ix.symm.le.trans hle)⟩

/-! ### The decoder's side -/

/-- The decoder `d`, which reads the payload `f`, is where the encoder `e` is: its `BASE` is `V` less the low end of
the coding interval. -/
structure InStep (f : Nat → Byte) (e d : State) : Prop where
  halt : d.halt = false
  mode : d.mode = .dec
  err : d.err = false
  params : d.params = e.params
  lenLe : d.len.toNat ≤ d.params.bufBytes
  range : d.range = e.range
  ix : d.ix = e.ix
  base : d.base.toNat + e.codedLow = readAhead f e
  payload : ∀ p, d.payloadByte p = f p

/-- The entries of a table of R10 do not decrease. -/
theorem wellFormedTable_mono {p : Params} {base nsym : Nat} (h : wellFormedTable p base nsym) {i j : Nat}
    (hij : i ≤ j) (hj : j ≤ nsym) : (p.cdf (base + i)).toNat ≤ (p.cdf (base + j)).toNat := by
  obtain ⟨-, hmono, -⟩ := h
  induction j, hij using Nat.le_induction with
  | base => exact le_rfl
  | succ j _ ih => exact (ih (by omega)).trans (hmono j (by omega))

/-- Pulling at most two bytes below a remainder reads that much more of the payload (R113, R114). -/
theorem pulled_add (f : Nat → Byte) {m n rest low : Nat} (hn : n ≤ 2) (h : rest + low = bytesBig f m) :
    (if n = 0 then rest else if n = 1 then rest * 2 ^ 8 + (f m).toNat
      else rest * 2 ^ 16 + (f m).toNat * 2 ^ 8 + (f (m + 1)).toNat) + low * 256 ^ n = bytesBig f (m + n) := by
  match n, hn with
  | 0, _ => simpa using h
  | 1, _ =>
    simp only [one_ne_zero, if_false, if_true, bytesBig, ← h]
    ring
  | 2, _ =>
    simp only [OfNat.ofNat_ne_zero, OfNat.ofNat_ne_one, if_false, bytesBig, ← h]
    ring

section

variable {f : Nat → Byte} {e e' d : State} {k : Coded}

theorem InStep.isDecoded (h : InStep f e d) (hstep : EncodeStep e e' k) (hin : InInterval f e')
    (hgood : k.good e.params) : isDecoded d k.base.toNat k.nsym.toNat k.sym.toNat := by
  obtain ⟨htable, hsym, -⟩ := hgood
  obtain ⟨hlow, hhigh⟩ := hstep.subinterval hin
  have hbase := h.base
  have hentry (i : Nat) : entry d i = (e.params.cdf i).toNat := by rw [entry, h.params]
  rw [Coded.low] at hlow
  rw [Coded.high] at hhigh
  refine ⟨hsym, by rw [hentry, h.range]; omega, fun j hj hle => ?_⟩
  have hmono : e.range.toNat * (e.params.cdf (k.base.toNat + k.sym.toNat + 1)).toNat ≤
      e.range.toNat * (e.params.cdf (k.base.toNat + j)).toNat :=
    Nat.mul_le_mul_left _ (wellFormedTable_mono htable hj hle)
  rw [hentry, h.range]
  omega

/-- The decoder finds the symbol that the encoder encoded, and is again where the encoder is. -/
theorem InStep.decode (h : InStep f e d) (hstep : EncodeStep e e' k) (hin : InInterval f e')
    (hgood : k.good e.params) (hlen : e'.ix.toNat ≤ d.len.toNat) :
    (after k.decode d).resp = some (okWord 0 k.sym.toNat) ∧ (after k.decode d).len = d.len ∧
      InStep f e' (after k.decode d) := by
  have hdec := h.isDecoded hstep hin hgood
  obtain ⟨⟨hidx, -⟩, hsym, -⟩ := hgood
  obtain ⟨hlow, -⟩ := hstep.subinterval hin
  have hrule := ((decodeFollowsTheMainRule d k.base k.nsym k.hint h.halt h.mode h.err h.lenLe (by omega)
    (by rw [h.params]; exact hidx)).2 k.sym.toNat hdec).2
  have hentryLow : entry d (k.base.toNat + k.sym.toNat) = (k.low e.params).toNat := by rw [entry, h.params]; rfl
  have hentryHigh : entry d (k.base.toNat + k.sym.toNat + 1) = (k.high e.params).toNat := by
    rw [entry, h.params]; rfl
  have hpayload (p : Nat) : Claims.payload d d.len.toNat p = (f p).toNat := by
    rw [← State.payloadByte_toNat, h.payload]
  have hfive : 5 + e.ix.toNat = 4 + e.ix.toNat + 1 := by omega
  simp only [hentryLow, hentryHigh, h.range, h.ix, hpayload, hfive, ← hstep.ix, ← hstep.range] at hrule
  have hbase := h.base
  have hsum : d.base.toNat - e.range.toNat * (k.low e.params).toNat +
      (e.codedLow + e.range.toNat * (k.low e.params).toNat) = bytesBig f (4 + e.ix.toNat) := by
    rw [readAhead] at hbase hlow
    omega
  have hread := pulled_add f (moved_le_two
    (e.range.toNat * ((k.high e.params).toNat - (k.low e.params).toNat))) hsum
  have hahead : 4 + e.ix.toNat + moved (e.range.toNat * ((k.high e.params).toNat - (k.low e.params).toNat)) =
      4 + e'.ix.toNat := by rw [hstep.ix, Nat.add_assoc]
  rw [hahead, ← hstep.codedLow] at hread
  have hrangeLt := e'.range.isLt
  have hupper := hin.2
  rw [readAhead, ← hread] at hupper
  rw [Coded.decode, after_of_exec (hrule hlen)]
  refine ⟨rfl, rfl, h.halt, h.mode, h.err, h.params.trans hstep.params.symm, h.lenLe, ?_, ?_, ?_, h.payload⟩
  · exact (BitVec.ofNat_toNat ..).trans (BitVec.setWidth_eq _)
  · exact (BitVec.ofNat_toNat ..).trans (BitVec.setWidth_eq _)
  · rw [readAhead, ← hread, BitVec.toNat_ofNat, Nat.mod_eq_of_lt (by omega)]

/-- RC_CHECK of the payload that the wrap-up wrote answers OK (R120). -/
theorem InStep.check (h : InStep f e d) {b : Nat} {r : Word64} (hb : lengthTerm e.range.toNat b)
    (hr : (after .rcEncWrapup e).resp = some r) (hok : classOf r = 0)
    (hlen : (after .rcEncWrapup e).ix.toNat ≤ d.len.toNat)
    (hf : ∀ a, a < (after .rcEncWrapup e).ix.toNat → f a = (after .rcEncWrapup e).bufByte a) :
    (after .rcCheck d).resp = some (okWord 0 0) := by
  obtain ⟨hix, hbytes⟩ := wrapup_ok hb hr hok
  obtain ⟨h2, h10⟩ := lengthTerm_bounds hb
  have hpos := bytesFor_pos b
  have hpad : 8 * bytesFor b - b < 8 := by unfold bytesFor; split <;> omega
  rw [hix] at hlen hf
  rw [← bytesBig_congr hf] at hbytes
  have hlast : d.bufByte (e.ix.toNat + bytesFor b - 1) = f (e.ix.toNat + bytesFor b - 1) := by
    rw [← h.payload, State.payloadByte, if_pos (by omega)]
  have hones : (f (e.ix.toNat + bytesFor b - 1)).toNat % 2 ^ (8 * bytesFor b - b) = 2 ^ (8 * bytesFor b - b) - 1 := by
    rw [show e.ix.toNat + bytesFor b = e.ix.toNat + bytesFor b - 1 + 1 by omega] at hbytes
    exact last_byte_ones hpad hbytes
  obtain ⟨-, -, -, -, hcheck⟩ := checkVerifiesThePadding d b h.halt h.lenLe (by rw [h.range]; exact hb)
  rw [h.ix, hlast] at hcheck
  rw [after_of_exec (hcheck h.mode h.err hlen hones)]
  rfl

end

/-- From a decoder that is where the encoder is: it answers the symbols and passes the check, and after each symbol
it is where the encoder is. -/
theorem decodes_of_inStep {bits : Nat} (hbits : bits < 2 ^ 32) {f : Nat → Byte} {ks : List Coded} {e d : State}
    (hrange : 256 ≤ e.range.toNat) (h : EncodesTo e ks bits) (hgood : ∀ k ∈ ks, k.good e.params)
    (hf : ∀ a, a < (sessionEnd ks e).ix.toNat → f a = (sessionEnd ks e).bufByte a)
    (hlen : (sessionEnd ks e).ix.toNat ≤ d.len.toNat) (hstep : InStep f e d) :
    answers (ks.map Coded.decode ++ [.rcCheck]) d =
        ks.map (fun k => some (okWord 0 k.sym.toNat)) ++ [some (okWord 0 0)] ∧
      ∀ n, InStep f (runAll ((ks.take n).map Coded.encode) e) (runAll ((ks.take n).map Coded.decode) d) := by
  induction ks generalizing e d with
  | nil =>
    obtain ⟨b, hb⟩ := exists_lengthTerm hrange e.range.isLt
    have hcheck := hstep.check hb (encodesTo_nil h) (classOf_wrapup_word _ hbits) hlen hf
    exact ⟨congrArg (· :: []) hcheck, fun n => by simpa [runAll] using hstep⟩
  | cons k ks ih =>
    obtain ⟨hresp, htail⟩ := encodesTo_cons h
    have hencode := encodeStep_of_ok hresp
    have hrange' := hencode.range_ge hrange
    obtain ⟨hin, hle⟩ := inInterval_of_encodesTo hbits hrange' htail hf
    obtain ⟨hanswer, hlenEq, hstep'⟩ := hstep.decode hencode hin (hgood k List.mem_cons_self) (hle.trans hlen)
    obtain ⟨hanswers, hpoints⟩ := ih hrange' htail
      (fun j hj => hencode.params ▸ hgood j (List.mem_cons_of_mem _ hj)) hf (hlenEq ▸ hlen) hstep'
    refine ⟨congrArg₂ List.cons hanswer hanswers, fun n => ?_⟩
    cases n with
    | zero => exact hstep
    | succ n => exact hpoints n

/-- The seed of `BASE` is the first four payload bytes as one number (R102). -/
theorem State.seedBase_toNat (s : State) : s.seedBase.toNat = bytesBig s.payloadByte 4 := by
  simp only [State.seedBase, append_toNat, bytesBig]
  omega

theorem State.codedLow_eq_zero {s : State} (hix : s.ix = 0) (hbase : s.base = 0) : s.codedLow = 0 := by
  simp [State.codedLow, hix, hbase, bytesBig]

/-- RC_ENC_INIT with a length that `BUF` can hold (R101). -/
theorem after_rcEncInit {s : State} {len : Word16} (hs : s.halt = false) (hlen : len.toNat ≤ s.params.bufBytes) :
    after (.rcEncInit len) s = answered (s.withSession .enc 0 len).withoutErr (okWord 0 0) := by
  have hrule := exec_rcEncInit (len := len) hs
  rw [if_neg hlen.not_gt] at hrule
  exact after_of_exec hrule

/-- RC_DEC_INIT with a length that `BUF` can hold (R102). -/
theorem after_rcDecInit {d : State} {len : Word16} (hd : d.halt = false) (hlen : len.toNat ≤ d.params.bufBytes) :
    after (.rcDecInit len) d =
      answered (d.withSession .dec (d.withSession .dec 0 len).seedBase len).withoutErr (okWord 0 0) := by
  have hrule := exec_rcDecInit (len := len) hd
  rw [if_neg hlen.not_gt] at hrule
  exact after_of_exec hrule

/-- Right after the two inits the decoder is where the encoder is. -/
theorem inStep_init {s d : State} {len len' : Word16} (hs : s.halt = false) (hd : d.halt = false)
    (hparams : d.params = s.params) (hlen : len.toNat ≤ s.params.bufBytes) (hlen' : len'.toNat ≤ d.params.bufBytes) :
    InStep (after (.rcDecInit len') d).payloadByte (after (.rcEncInit len) s) (after (.rcDecInit len') d) := by
  rw [after_rcEncInit hs hlen, after_rcDecInit hd hlen']
  refine ⟨hd, rfl, rfl, hparams, hlen', rfl, rfl, ?_, fun _ => rfl⟩
  rw [State.codedLow_eq_zero (s := answered (s.withSession .enc 0 len).withoutErr (okWord 0 0)) rfl rfl]
  exact State.seedBase_toNat (d.withSession .dec 0 len')

/-- Settles O41: `V` is in the coding interval from the wrap-up back to the start, so the decoder stays where the
encoder is. -/
theorem decodingInvertsEncoding : Obligations.DecodingInvertsEncoding := by
  intro s d len len' ks bits hs hd hparams hlen hlen' hgood hbits t hanswers hroom hbytes
  rw [← hparams] at hlen'
  have hinit := after_rcEncInit hs hlen
  have hinit' := after_rcDecInit hd hlen'
  have hrange : 256 ≤ (after (.rcEncInit len) s).range.toNat := by
    rw [hinit]
    exact Nat.le_of_ble_eq_true rfl
  have hencodes : EncodesTo (after (.rcEncInit len) s) ks bits := (List.cons.inj hanswers).2
  have hpayload (a : Nat) (ha : a < t.ix.toNat) : (after (.rcDecInit len') d).payloadByte a = t.bufByte a := by
    rw [hinit', ← hbytes a ha]
    exact if_pos (ha.trans_le hroom)
  obtain ⟨hdecodes, hpoints⟩ := decodes_of_inStep hbits hrange hencodes
    (by rw [hinit]; exact hgood) hpayload (by rw [hinit']; exact hroom) (inStep_init hs hd hparams hlen hlen')
  exact ⟨congrArg₂ List.cons (by rw [hinit']; rfl) hdecodes, fun n => ⟨(hpoints n).range, (hpoints n).ix⟩⟩

end Sys2Proof.Machine
